-- ==== Sys2Proof/Word.lean ====
section
/-! DEFINITION. The bus word and the aperture offset (20_memory.md R40, R41, R48; 30_encoding.md R65). -/

namespace Sys2Proof

/-- A 32-bit bus word: bit 0 is the least significant bit (R10, R48). -/
abbrev Word := BitVec 32

/-- A 15-bit offset into the 0x8000-byte register aperture (R40, R65). -/
abbrev Offset := BitVec 15

end Sys2Proof
end

