-- ==== Sys2Proof/Syntax.lean ====
section
/-! DEFINITION. The six commands of the engine, one constructor per row of spec/opcode_table.json (30_encoding.md R61). -/

namespace Sys2Proof

/-- The commands (R61). None has an operand field: the operands are the registers OPA, OPB, OPN and ITER (R57, R63). -/
inductive Instr where
  /-- opcode 0: no operation (R89) -/
  | nop
  /-- opcode 1: RES = OPA^OPB mod OPN (R72) -/
  | modexp
  /-- opcode 2: RES = OPA * OPB mod OPN (R73) -/
  | modmul
  /-- opcode 3: the Jacobi symbol (OPA / OPN) (R79) -/
  | jacobi
  /-- opcode 4: one Solovay-Strassen trial of OPN with witness OPA (R83) -/
  | sstrial
  /-- opcode 5: a Solovay-Strassen test of OPN with ITER drawn witnesses (R84) -/
  | sstest
deriving DecidableEq, Repr

end Sys2Proof
end

