-- ==== Sys2Proof/WellFormed.lean ====
section
/-! DEFINITION. What makes a command word legal (30_encoding.md R58 to R60) and an operand width legal (00_scope.md R5).
A command has no operand field, so every `Instr` is well-formed; the checks are on the word and on the width. -/

namespace Sys2Proof

/-- Bits 31:4 of a command word are reserved and must be 0 (R57, R59). -/
def reservedBitsClear (v : Word) : Bool := v.extractLsb 31 4 == 0#28

/-- The opcode in bits 3:0 is one of 0 to 5 (R58); 6 to 15 are reserved (R60). -/
def opcodeDefined (v : Word) : Bool := decide ((v.extractLsb 3 0).toNat ≤ 5)

/-- R58: a command word is legal if and only if both checks pass. -/
def legalWord (v : Word) : Bool := reservedBitsClear v && opcodeDefined v

/-- R5, R6: W = 32 * NW with 64 <= W <= 32768. -/
def legalWidth (nw : Nat) : Bool := decide (2 ≤ nw) && decide (nw ≤ 1024)

/-- Every command is well-formed: none has an operand field to check (R57, R63). -/
def Instr.wellFormed (i : Instr) : Bool :=
  match i with
  | .nop => true
  | .modexp => true
  | .modmul => true
  | .jacobi => true
  | .sstrial => true
  | .sstest => true

end Sys2Proof
end

