-- ==== Sys2Proof/Decode.lean ====
section
/-! DEFINITION. Decoding and encoding of the command word (30_encoding.md R57 to R61). -/

namespace Sys2Proof

/-- Why a command word selects no command. Both are reported by the engine as ILLEGAL_COMMAND (43_control.md R90). -/
inductive IllegalWord where
  /-- a bit of 31:4 is set (R59) -/
  | reservedBits
  /-- bits 31:4 are 0 and the opcode is 6 to 15 (R60) -/
  | reservedOpcode
deriving DecidableEq, Repr

/-- The opcode field OP, bits 3:0 (R57). -/
def opField (v : Word) : BitVec 4 := v.extractLsb' 0 4

/-- The reserved field RSVD, bits 31:4 (R57). -/
def rsvdField (v : Word) : BitVec 28 := v.extractLsb' 4 28

/-- The opcode map (R61); opcodes 6 to 15 are rejected by name (R60). -/
def decodeOp (op : BitVec 4) : Except IllegalWord Instr :=
  match op.toNat with
  | 0 => .ok .nop
  | 1 => .ok .modexp
  | 2 => .ok .modmul
  | 3 => .ok .jacobi
  | 4 => .ok .sstrial
  | 5 => .ok .sstest
  | _ => .error .reservedOpcode

/-- The decoder, total on every 32-bit word (R58, R59). -/
def decode (v : Word) : Except IllegalWord Instr :=
  if rsvdField v = 0#28 then decodeOp (opField v) else .error .reservedBits

/-- The command word of a command (R61, spec/opcode_table.json). -/
def encode (i : Instr) : Word :=
  match i with
  | .nop => 0x00000000#32
  | .modexp => 0x00000001#32
  | .modmul => 0x00000002#32
  | .jacobi => 0x00000003#32
  | .sstrial => 0x00000004#32
  | .sstest => 0x00000005#32

/-- The command word whose low `nbits` bits are those of `w`, the bits above them 0. -/
def tableWord (nbits w : Nat) : Word := BitVec.ofNat 32 (w % 2 ^ nbits)

/-- The command read from a word given as spec/opcode_table.json numbers its bits. A command is one 32-bit word and no
longer (R57), so a row of more than 32 bits is none. -/
def decodeTableWord (nbits w : Nat) : Option Instr :=
  if nbits ≤ 32 then
    match decode (tableWord nbits w) with
    | .ok i => some i
    | .error _ => none
  else none

end Sys2Proof
end

