-- ==== Sys2Proof/Config.lean ====
section
/-! DEFINITION. What an implementation or a platform fixes, and the free values of the spec. -/

namespace Sys2Proof

/-- The default operand width in bus words: W = 2048, NW = 64 (00_scope.md R5, R6). The width of a state is its field
`nw`, so that claims speak of every legal W (log 1). -/
def Config.defaultNw : Nat := 64

/-- FREE VALUE (log 7): what the random source supplies at its n-th draw (R8, R84, U1). `drawWitness` maps it into the
set the spec draws from; nothing else is known of it. -/
opaque Config.witness : Nat → Nat

/-- FREE VALUE (log 8): what a read of RES or TDONE while BUSY returns, fresh at each draw (20_memory.md R47, U2, U3). -/
opaque Config.busyRead : Nat → Word

/-- PARAMETER, OPEN in the spec (log 15): APERTURE_BASE / 0x8000; the base is aligned to 0x8000 (R40, U11). -/
opaque Config.apertureIndex : Nat

/-- The host address of the aperture's first byte (R40). -/
def Config.apertureBase : Nat := 0x8000 * Config.apertureIndex

/-- PARAMETER, OPEN in the spec (log 15): the platform's line number of the interrupt (60_exceptions.md R102, U11). -/
opaque Config.irqLine : Nat

end Sys2Proof
end

