-- ==== Sys2Proof/Machine/State.lean ====
section
/-! DEFINITION. The state of one SSPT engine (10_state.md R14), the bus it is driven by (20_memory.md R41), and the state
after reset (70_reset_and_hazards.md R110). -/

namespace Sys2Proof.Machine

/-- STATUS.ERR (R31, R64, R98): the codes 0 to 6; codes 7 to 15 are never written and have no constructor (U9, log 12). -/
inductive ErrCode where
  | noError | illegalCommand | invalidModulus | evenModulus | jacobiUndefined | witnessRange | aborted
deriving DecidableEq, Repr

/-- STATUS.JSYM (R33, R64): no symbol, +1, -1; code 0b10 is never written and has no constructor (U9, log 12). -/
inductive Jsym where
  | noSymbol | plus | minus
deriving DecidableEq, Repr

/-- STATUS.REASON (R34, R64): the codes 0 to 5; codes 6 and 7 are never written and have no constructor (U9, log 12). -/
inductive Reason where
  | noReason | rejected | trivial | jacobiUndefined | mismatch | passed
deriving DecidableEq, Repr

/-- A register of the aperture (R42); `opA i` is word i of the OPA window, i below NW (R43). -/
inductive BusReg where
  | id | param | ctrl | status | cmd | iter | tdone
  | opA (i : Nat) | opB (i : Nat) | opN (i : Nat) | res (i : Nat)
  /-- a reserved offset, or a window word at or above NW (R50) -/
  | reserved
deriving DecidableEq, Repr

/-- A bus transaction (R41): an offset, a size in bytes and, for a write, its value. A write of another size than 4 is
refused whole, so only a 32-bit value is carried (R49, log 13). -/
inductive Txn where
  | read (off : Offset) (size : Nat)
  | write (off : Offset) (size : Nat) (v : Word)
deriving DecidableEq, Repr

/-- What the host does next: one transaction, or a poll loop of one read per turn until `(value and mask) = val`
(30_encoding.md R65). -/
inductive HostOp where
  | bus (t : Txn)
  | poll (off : Offset) (mask val : Word)
deriving DecidableEq, Repr

/-- Who takes the next step (R13, R54), and the two edges of the platform's reset input (R111). -/
inductive Turn where
  | host | engine | assertReset | releaseReset
deriving DecidableEq, Repr

/-- The response of the last bus transaction (R41); `quiet` before the first one (log 6). -/
inductive Response where
  | quiet
  /-- OKAY with the 32-bit data of a read -/
  | data (v : Word)
  /-- OKAY of a write -/
  | okay
  | busErr
deriving DecidableEq, Repr

/-- Why the machine stops with a fault. -/
inductive Fault where
  /-- Raised by the engine's turn in a state with BUSY = 1 and no ACTIVE_OP, which R29 and R21 rule out: the engine's step
  is defined only for an ACTIVE_OP (R96). SAFE: the model stops, and no run reaches such a state (log 11). -/
  | noActiveOp
deriving DecidableEq, Repr

/-- Why a step is refused. -/
inductive Refusal where
  /-- Raised by an arm of `exec` that has no meaning yet. SAFE: the model stops. No arm of this model raises it. -/
  | notModelled (mnemonic : String)
  /-- Raised by a host turn with a transaction to issue while the platform's reset input is asserted: "the platform must
  not issue any" (R111), and a model gives it no step (U14). SAFE: the model stops (log 10). -/
  | transactionInReset
deriving DecidableEq, Repr

/-- The state. The first group is the tuple of R14; the second is the model's own (logs 1, 2, 6, 9, 10).
A W-bit register is the list of its NW bus words, word 0 (the least significant) first (R43, R62). -/
structure State where
  /-- OPA (R15) -/
  opa : List Word
  /-- OPB (R16) -/
  opb : List Word
  /-- OPN (R17) -/
  opn : List Word
  /-- RES (R18) -/
  res : List Word
  /-- CTRL.IE (R23) -/
  ie : Bool
  /-- STATUS.BUSY (R29) -/
  busy : Bool
  /-- STATUS.DONE (R30) -/
  done : Bool
  /-- STATUS.ERR (R31) -/
  err : ErrCode
  /-- STATUS.VERDICT (R32) -/
  verdict : Bool
  /-- STATUS.JSYM (R33) -/
  jsym : Jsym
  /-- STATUS.REASON (R34) -/
  reason : Reason
  /-- STATUS.WBUSY (R35) -/
  wbusy : Bool
  /-- ITER (R36) -/
  iter : Word
  /-- TDONE (R37) -/
  tdone : Word
  /-- ACTIVE_OP, the command in progress (R21) -/
  activeOp : Option Instr
  /-- the parameter NW = W / 32; no step writes it (R5, R6; log 1) -/
  nw : Nat
  /-- whether the platform's reset input is asserted (R111; log 10) -/
  resetPin : Bool
  /-- what the host will do, in the order it issues it (R54; log 2) -/
  host : List HostOp
  /-- the schedule: who takes the coming steps (R13, R54; logs 2, 3) -/
  turns : List Turn
  /-- the response of the last transaction (R41; log 6) -/
  response : Response
  /-- how many free values have been drawn (R12; log 9) -/
  draws : Nat
deriving DecidableEq, Repr

/-- A W-bit register holding 0: NW words of 0. -/
def zeroWords (nw : Nat) : List Word := List.replicate nw 0#32

/-- The reset value of ITER, the source's PRIME_ITER (R36, R110). -/
def iterReset : Word := 100#32

/-- The state after reset (R110), for the default width (R5), with nothing pending outside the engine (logs 2, 6, 9, 10). -/
def State.reset : State where
  opa := zeroWords Config.defaultNw
  opb := zeroWords Config.defaultNw
  opn := zeroWords Config.defaultNw
  res := zeroWords Config.defaultNw
  ie := false
  busy := false
  done := false
  err := .noError
  verdict := false
  jsym := .noSymbol
  reason := .noReason
  wbusy := false
  iter := iterReset
  tdone := 0#32
  activeOp := none
  nw := Config.defaultNw
  resetPin := false
  host := []
  turns := []
  response := .quiet
  draws := 0

end Sys2Proof.Machine
end

