-- ==== Sys2Proof/Machine/Operands.lean ====
section
/-! DEFINITION. Operand assembly (30_encoding.md R62), the operand windows (20_memory.md R43, R48) and the decoding of an
aperture offset (R42). -/

namespace Sys2Proof.Machine

/-- R62: the natural number a wide register holds, the sum of word i times 2^(32 i). -/
def wideVal : List Word → Nat
  | [] => 0
  | w :: ws => w.toNat + 2 ^ 32 * wideVal ws

/-- The `nw` words of a natural number, least significant first: what `x[RES] <- v` writes (R12). -/
def wideOfNat : Nat → Nat → List Word
  | 0, _ => []
  | k + 1, v => BitVec.ofNat 32 v :: wideOfNat k (v / 2 ^ 32)

/-- Word i of a wide register, bits 32i+31 : 32i (R43). -/
def readWord (r : List Word) (i : Nat) : Word := r.getD i 0#32

/-- A wide register with word i replaced (R45). -/
def writeWord (r : List Word) (i : Nat) (v : Word) : List Word := r.set i v

/-- OP(A) (R12). -/
def opA (s : State) : Nat := wideVal s.opa

/-- OP(B) (R12). -/
def opB (s : State) : Nat := wideVal s.opb

/-- OP(N) (R12). -/
def opN (s : State) : Nat := wideVal s.opn

/-- Byte k of a bus word, bits 8k+7 : 8k: little-endian byte lanes (R48). -/
def byteLane (v : Word) (k : Nat) : BitVec 8 := v.extractLsb' (8 * k) 8

/-- R49: the only legal access is 4 bytes at an offset that is a multiple of 4. -/
def legalAccess (off : Offset) (size : Nat) : Bool := decide (off.toNat % 4 = 0) && decide (size = 4)

/-- A word of an operand window: below NW a register word, at or above it reserved (R43, R50). -/
def windowWord (nw : Nat) (reg : Nat → BusReg) (i : Nat) : BusReg := if i < nw then reg i else .reserved

/-- The register an aligned offset reaches (R42, R43). -/
def decodeOffset (nw : Nat) (off : Offset) : BusReg :=
  let o := off.toNat
  if o < 0x1000 then
    if o = 0x0000 then .id
    else if o = 0x0004 then .param
    else if o = 0x0008 then .ctrl
    else if o = 0x000C then .status
    else if o = 0x0010 then .cmd
    else if o = 0x0014 then .iter
    else if o = 0x0018 then .tdone
    else .reserved
  else if o < 0x2000 then windowWord nw .opA ((o - 0x1000) / 4)
  else if o < 0x3000 then windowWord nw .opB ((o - 0x2000) / 4)
  else if o < 0x4000 then windowWord nw .opN ((o - 0x3000) / 4)
  else if o < 0x5000 then windowWord nw .res ((o - 0x4000) / 4)
  else .reserved

/-- The offset of a register by its name (R42, R43, R65); for `reserved`, the lowest reserved offset. -/
def regOffset (r : BusReg) : Offset :=
  match r with
  | .id => 0x0000#15
  | .param => 0x0004#15
  | .ctrl => 0x0008#15
  | .status => 0x000C#15
  | .cmd => 0x0010#15
  | .iter => 0x0014#15
  | .tdone => 0x0018#15
  | .opA i => BitVec.ofNat 15 (0x1000 + 4 * i)
  | .opB i => BitVec.ofNat 15 (0x2000 + 4 * i)
  | .opN i => BitVec.ofNat 15 (0x3000 + 4 * i)
  | .res i => BitVec.ofNat 15 (0x4000 + 4 * i)
  | .reserved => 0x001C#15

/-- R40: the offset a host address selects, if it lies in the aperture (APERTURE_BASE is a parameter; log 15). -/
def offsetOfAddress (addr : Nat) : Option Offset :=
  if addr / 0x8000 = Config.apertureIndex then some (BitVec.ofNat 15 addr) else none

end Sys2Proof.Machine
end

