-- ==== Sys2Proof/Machine/Flags.lean ====
section
/-! DEFINITION. The field codes of STATUS (30_encoding.md R64), the words the registers ID, PARAM, CTRL and STATUS read as
(20_memory.md R44), and the interrupt output (10_state.md R38). -/

namespace Sys2Proof.Machine

/-- The code of STATUS.ERR, bits 7:4 (R31, R64, R98). -/
def errBits (e : ErrCode) : BitVec 4 :=
  match e with
  | .noError => 0#4
  | .illegalCommand => 1#4
  | .invalidModulus => 2#4
  | .evenModulus => 3#4
  | .jacobiUndefined => 4#4
  | .witnessRange => 5#4
  | .aborted => 6#4

/-- The code of STATUS.JSYM, bits 10:9 (R33, R64). -/
def jsymBits (j : Jsym) : BitVec 2 :=
  match j with
  | .noSymbol => 0b00#2
  | .plus => 0b01#2
  | .minus => 0b11#2

/-- The code of STATUS.REASON, bits 14:12 (R34, R64). -/
def reasonBits (r : Reason) : BitVec 3 :=
  match r with
  | .noReason => 0#3
  | .rejected => 1#3
  | .trivial => 2#3
  | .jacobiUndefined => 3#3
  | .mismatch => 4#3
  | .passed => 5#3

/-- What STATUS reads as: the fields in R44's order, reserved bits 0 (R35). -/
def statusWord (s : State) : Word :=
  0#15 ++ BitVec.ofBool s.wbusy ++ 0#1 ++ reasonBits s.reason ++ 0#1 ++ jsymBits s.jsym ++ BitVec.ofBool s.verdict
    ++ errBits s.err ++ 0#2 ++ BitVec.ofBool s.done ++ BitVec.ofBool s.busy

/-- What CTRL reads as: IE in bit 0, the action bits and the reserved bits 0 (R24, R25, R26). -/
def ctrlWord (s : State) : Word := 0#31 ++ BitVec.ofBool s.ie

/-- What ID reads as, the bytes "SSPT" (R27). -/
def idWord : Word := 0x53535054#32

/-- What PARAM reads as: NW in bits 15:0 (R28). -/
def paramWord (s : State) : Word := 0#16 ++ BitVec.ofNat 16 s.nw

/-- The interrupt output, a level: DONE and IE (R38, R102). -/
def irq (s : State) : Bool := s.done && s.ie

/-- The level the engine drives on line `l` of the platform's interrupt controller (R102; log 15). -/
def interruptLine (s : State) (l : Nat) : Bool := irq s && l == Config.irqLine

end Sys2Proof.Machine
end

