-- ==== Sys2Proof/Machine/Ops.lean ====
section
/-! DEFINITION. The shared operations on the state: reset, the start of a command, the two completions (an error completion is
this engine's one way of reporting an exception, 60_exceptions.md R97; its return is the write-one-to-clear of DONE, R103),
the control actions of CTRL and STATUS writes, and the draws of free values. -/

namespace Sys2Proof.Machine

/-- What a step answers. -/
abbrev StepOutcome := Host.Outcome State Fault Refusal

/-- The outcome of a command's pseudocode (R96): `complete(RES, VERDICT, JSYM, REASON, TDONE)` or `raise Error(code)`. -/
inductive CmdResult where
  | complete (res : Nat) (verdict : Bool) (jsym : Jsym) (reason : Reason) (tdone : Nat)
  | raise (code : ErrCode)
deriving DecidableEq, Repr

/-- R110, R112: every piece of state of R14 at its reset value; the width, the host, the schedule, the pin, the last
response and the draw counter are not state of the engine and stay (logs 1, 2, 6, 9, 10). -/
def resetRegs (s : State) : State :=
  { s with
    opa := zeroWords s.nw
    opb := zeroWords s.nw
    opn := zeroWords s.nw
    res := zeroWords s.nw
    ie := false
    busy := false
    done := false
    err := .noError
    verdict := false
    jsym := .noSymbol
    reason := .noReason
    wbusy := false
    iter := iterReset
    tdone := 0#32
    activeOp := none }

/-- R88: the start of command `i`, performed with its CMD write. -/
def commandStart (i : Instr) (s : State) : State :=
  { s with
    busy := true
    done := false
    err := .noError
    verdict := false
    jsym := .noSymbol
    reason := .noReason
    activeOp := some i }

/-- R96: the successful completion, all its writes at one point. -/
def complete (r : Nat) (v : Bool) (js : Jsym) (rs : Reason) (t : Nat) (s : State) : State :=
  { s with
    res := wideOfNat s.nw r
    verdict := v
    jsym := js
    reason := rs
    tdone := BitVec.ofNat 32 t
    err := .noError
    busy := false
    done := true
    activeOp := none }

/-- R97: the error completion, the one way an error is reported: the result fields are zeroed, ERR holds the code, the
engine is idle and DONE is set; nothing is saved (R98, R103). -/
def errorComplete (code : ErrCode) (s : State) : State :=
  { s with
    res := zeroWords s.nw
    verdict := false
    jsym := .noSymbol
    reason := .noReason
    tdone := 0#32
    err := code
    busy := false
    done := true
    activeOp := none }

/-- R96: the engine's step, once the pseudocode of ACTIVE_OP has given its outcome. -/
def finish (c : CmdResult) (s : State) : State :=
  match c with
  | .complete r v js rs t => complete r v js rs t s
  | .raise code => errorComplete code s

/-- R90: an illegal command word, written while idle, completes at once. -/
def illegalWord (s : State) : State := errorComplete .illegalCommand s

/-- R92: the abort of the running command (called only while BUSY = 1). -/
def abort (s : State) : State := errorComplete .aborted s

/-- R46: a write dropped because BUSY = 1 sets WBUSY and changes nothing else. -/
def dropWrite (s : State) : State := { s with wbusy := true }

/-- R91: a write to CTRL, busy or not: SRST first, then IE, then ABORT if a command runs. -/
def ctrlWrite (v : Word) (s : State) : State :=
  if v.getLsbD 2 then resetRegs s
  else
    let s' := { s with ie := v.getLsbD 0 }
    if v.getLsbD 1 && s.busy then abort s' else s'

/-- R93, R103: a write to STATUS clears DONE and WBUSY by ones: the acknowledgement of a completion. -/
def statusWrite (v : Word) (s : State) : State :=
  { s with
    done := s.done && !v.getLsbD 1
    wbusy := s.wbusy && !v.getLsbD 16 }

/-- R84: a witness for candidate p, `draw({1, ..., p - 1})`: the c-th value of a source, mapped onto the set. FREE VALUE
(log 7): the mapping reaches every element of the set and nothing else is known of the source. -/
def drawWitness (source : Nat → Nat) (p c : Nat) : Nat := 1 + source c % (p - 1)

/-- R47: the value a read of RES or TDONE returns while BUSY. FREE VALUE (log 8). -/
def drawWord (s : State) : Word := Config.busyRead s.draws

end Sys2Proof.Machine
end

