-- ==== Sys2Proof/Machine/Control.lean ====
section
/-! DEFINITION. NOP, the command without a computation (43_control.md R89). -/

namespace Sys2Proof.Machine

/-- NOP (R89, D41, C9): ERR = 0 and DONE = 1, and nothing else. It is performed at its CMD write while idle; a word written
while BUSY is dropped before it is decoded (R88, `cmdWrite`). -/
def execNop (s : State) : StepOutcome := .next { s with err := .noError, done := true }

end Sys2Proof.Machine
end

