-- ==== Sys2Proof/Machine/Jacobi.lean ====
section
/-! DEFINITION. The Jacobi symbol: JACOBI (41_jacobi.md). -/

namespace Sys2Proof.Machine

/-- R75: GcdF(a, n), with GcdF(a, 0) = a and GcdF(0, n) = n. -/
def gcdF (a n : Nat) : Nat := Nat.gcd a n

/-- R76's inner loop, for a nonzero `a`: strip the factors of 2, flipping the sign when n mod 8 is 3 or 5. The fuel bounds
the number of halvings by the bits of `a`. -/
def stripTwos : (fuel a n : Nat) → (s : Int) → Nat × Int
  | 0, a, _, s => (a, s)
  | k + 1, a, n, s =>
    if a % 2 = 0 then stripTwos k (a / 2) n (if n % 8 = 3 ∨ n % 8 = 5 then -s else s) else (a, s)

/-- The flip of quadratic reciprocity (R76): when a and n are both 3 mod 4. -/
def reciprocityFlip (a n : Nat) (s : Int) : Int := if a % 4 = 3 ∧ n % 4 = 3 then -s else s

/-- R76's outer loop; `a` is already reduced. The fuel bounds the number of swaps. -/
def jacobiLoop : (fuel a n : Nat) → (s : Int) → Int
  | 0, _, n, s => if n = 1 then s else 0
  | k + 1, a, n, s =>
    if a = 0 then (if n = 1 then s else 0)
    else
      let o := stripTwos a.log2 a n s
      jacobiLoop k (n % o.1) o.1 (reciprocityFlip o.1 n o.2)

/-- R76: JacobiF(a, n) for odd n, an element of -1, 0, +1. Each swap at least halves the product a * n, which starts below
n * n, so the fuel is never used up (log 16). -/
def jacobiF (a n : Nat) : Int := jacobiLoop (2 * (n.log2 + 1)) (a % n) n 1

/-- R78: MapJ(j, n), the symbol mapped into [0, n). -/
def mapJ (j : Int) (n : Nat) : Nat := if j = 1 then 1 % n else if j = -1 then n - 1 else 0

/-- R78: EncJ(j), the JSYM code of a symbol. -/
def encJ (j : Int) : Jsym := if j = 1 then .plus else if j = -1 then .minus else .noSymbol

/-- R79: the pseudocode of JACOBI, its checks in the order of R99. -/
def jacobiResult (a n : Nat) : CmdResult :=
  if n = 0 then .raise .invalidModulus
  else if n % 2 = 0 then .raise .evenModulus
  else if gcdF a n ≠ 1 then .raise .jacobiUndefined
  else .complete (mapJ (jacobiF a n) n) false (encJ (jacobiF a n)) .noReason 0

/-- JACOBI (R79): the Jacobi symbol (OPA / OPN). -/
def execJacobi (s : State) : StepOutcome := .next (finish (jacobiResult (opA s) (opN s)) s)

end Sys2Proof.Machine
end

