-- ==== Sys2Proof/Machine/Modexp.lean ====
section
/-! DEFINITION. Modular exponentiation and multiplication: MODEXP and MODMUL (40_modexp.md). -/

namespace Sys2Proof.Machine

/-- R67: ModMulF(a, b, m), on the unbounded product. -/
def modMulF (a b m : Nat) : Nat := a * b % m

/-- R68's loop, with `r` the running result; the fuel bounds the number of turns by the bits of the exponent. -/
def modExpLoop : (fuel r b e m : Nat) → Nat
  | 0, r, _, _, _ => r
  | k + 1, r, b, e, m =>
    if e = 0 then r
    else modExpLoop k (if e % 2 = 1 then modMulF r b m else r) (modMulF b b m) (e / 2) m

/-- R68: ModExpF(b, e, m); the running result starts at 1 mod m (C1). -/
def modExpF (b e m : Nat) : Nat := modExpLoop (e.log2 + 1) (1 % m) b e m

/-- R72: the pseudocode of MODEXP. -/
def modexpResult (b e m : Nat) : CmdResult :=
  if m = 0 then .raise .invalidModulus
  else .complete (modExpF b e m) false .noSymbol .noReason 0

/-- R73: the pseudocode of MODMUL. -/
def modmulResult (a c m : Nat) : CmdResult :=
  if m = 0 then .raise .invalidModulus
  else .complete (modMulF a c m) false .noSymbol .noReason 0

/-- MODEXP (R72): RES = OPA^OPB mod OPN. -/
def execModexp (s : State) : StepOutcome := .next (finish (modexpResult (opA s) (opB s) (opN s)) s)

/-- MODMUL (R73): RES = OPA * OPB mod OPN. -/
def execModmul (s : State) : StepOutcome := .next (finish (modmulResult (opA s) (opB s) (opN s)) s)

end Sys2Proof.Machine
end

