-- ==== Sys2Proof/Machine/Primality.lean ====
section
/-! DEFINITION. The Solovay-Strassen test: SSTRIAL and SSTEST (42_primality.md). -/

namespace Sys2Proof.Machine

/-- R81: the classes of a candidate. -/
inductive Candidate where
  | rejected | trivial | run
deriving DecidableEq, Repr

/-- R81: Precheck(p). -/
def precheck (p : Nat) : Candidate :=
  if p < 2 ∨ (p % 2 = 0 ∧ p ≠ 2) then .rejected
  else if p = 2 then .trivial
  else .run

/-- R82: what a trial returns; a trial without a symbol has neither j nor x. -/
inductive Trial where
  | undefinedSymbol
  | mismatch (j : Int) (x : Nat)
  | pass (j : Int) (x : Nat)
deriving DecidableEq, Repr

/-- R82: TrialF(p, a), for odd p >= 3 and 1 <= a <= p - 1. -/
def trialF (p a : Nat) : Trial :=
  if gcdF a p ≠ 1 then .undefinedSymbol
  else
    let j := jacobiF a p
    let x := modExpF a ((p - 1) / 2) p
    if mapJ j p = x then .pass j x else .mismatch j x

/-- R82: whether a trial passes. -/
def trialPasses (p a : Nat) : Bool :=
  match trialF p a with
  | .undefinedSymbol => false
  | .mismatch _ _ => false
  | .pass _ _ => true

/-- The completion of a candidate that is rejected (R83, R84). -/
def rejectedResult : CmdResult := .complete 0 false .noSymbol .rejected 0

/-- The completion of the candidate 2 (R83, R84, C5). -/
def trivialResult : CmdResult := .complete 0 true .noSymbol .trivial 0

/-- R83: the completion of SSTRIAL after its trial. -/
def sstrialOutcome (t : Trial) : CmdResult :=
  match t with
  | .undefinedSymbol => .complete 0 false .noSymbol .jacobiUndefined 0
  | .mismatch j x => .complete x false (encJ j) .mismatch 0
  | .pass j x => .complete x true (encJ j) .passed 0

/-- R83: the pseudocode of SSTRIAL for candidate p and witness a. -/
def sstrialResult (p a : Nat) : CmdResult :=
  match precheck p with
  | .rejected => rejectedResult
  | .trivial => trivialResult
  | .run => if a = 0 ∨ a > p - 1 then .raise .witnessRange else sstrialOutcome (trialF p a)

/-- R84's loop for candidate p: `k` trials still to run, the next witness is draw number `c`, `t` trials have passed and
`last` was the last witness. It answers the completion and the number of the next draw. -/
def sstestLoop (source : Nat → Nat) (p : Nat) : (k c t last : Nat) → CmdResult × Nat
  | 0, c, t, last => (.complete last true .noSymbol .passed t, c)
  | k + 1, c, t, _ =>
    match trialF p (drawWitness source p c) with
    | .undefinedSymbol => (.complete (drawWitness source p c) false .noSymbol .jacobiUndefined t, c + 1)
    | .mismatch _ _ => (.complete (drawWitness source p c) false .noSymbol .mismatch t, c + 1)
    | .pass _ _ => sstestLoop source p k (c + 1) (t + 1) (drawWitness source p c)

/-- R84: the pseudocode of SSTEST for candidate p and k trials, its witnesses the draws c, c + 1, ... of a source. -/
def sstestResult (source : Nat → Nat) (p k c : Nat) : CmdResult × Nat :=
  match precheck p with
  | .rejected => (rejectedResult, c)
  | .trivial => (trivialResult, c)
  | .run => sstestLoop source p k c 0 0

/-- SSTRIAL (R83): one trial of candidate OPN with witness OPA. -/
def execSstrial (s : State) : StepOutcome := .next (finish (sstrialResult (opN s) (opA s)) s)

/-- SSTEST (R84): ITER trials of candidate OPN with drawn witnesses; each is a FREE VALUE (log 7). The draws used are
counted, so that no later draw repeats one (log 9). -/
def execSstest (s : State) : StepOutcome :=
  let o := sstestResult Config.witness (opN s) s.iter.toNat s.draws
  .next (finish o.1 { s with draws := o.2 })

end Sys2Proof.Machine
end

