-- ==== Sys2Proof/Machine/Dispatch.lean ====
section
/-! DEFINITION. One arm per command. `exec i s` is the command's own effect: for NOP at its CMD write (43_control.md R89), for
the five others the engine's completion step with ACTIVE_OP = i (60_exceptions.md R96). -/

namespace Sys2Proof.Machine

def exec (i : Instr) (s : State) : Host.Outcome State Fault Refusal :=
  match i with
  | .nop => Sys2Proof.Machine.execNop s
  | .modexp => Sys2Proof.Machine.execModexp s
  | .modmul => Sys2Proof.Machine.execModmul s
  | .jacobi => Sys2Proof.Machine.execJacobi s
  | .sstrial => Sys2Proof.Machine.execSstrial s
  | .sstest => Sys2Proof.Machine.execSstest s

end Sys2Proof.Machine
end

