-- ==== Sys2Proof/Machine/Bus.lean ====
section
/-! DEFINITION. The bus transactions of the host: MemRead and MemWrite (20_memory.md R44, R45) and the CMD write (43_control.md
R88). -/

namespace Sys2Proof.Machine

/-- Whether a read of register `r` returns a free value: a RES word or TDONE while BUSY (R47). -/
def readsFree (r : BusReg) (s : State) : Bool :=
  match r with
  | .tdone => s.busy
  | .res _ => s.busy
  | .id | .param | .ctrl | .status | .cmd | .iter | .opA _ | .opB _ | .opN _ | .reserved => false

/-- R44: the value a read of register `r` returns. -/
def readValue (r : BusReg) (s : State) : Word :=
  match r with
  | .id => idWord
  | .param => paramWord s
  | .ctrl => ctrlWord s
  | .status => statusWord s
  | .cmd => 0#32
  | .iter => s.iter
  | .tdone => if s.busy then drawWord s else s.tdone
  | .opA i => readWord s.opa i
  | .opB i => readWord s.opb i
  | .opN i => readWord s.opn i
  | .res i => if s.busy then drawWord s else readWord s.res i
  | .reserved => 0#32

/-- R44: MemRead(off, 4). No register changes (R52); the host gets the value, and a draw is used up where one was made. -/
def memRead (off : Offset) (s : State) : State :=
  { s with
    response := .data (readValue (decodeOffset s.nw off) s)
    draws := if readsFree (decodeOffset s.nw off) s then s.draws + 1 else s.draws }

/-- R88: what a legal command word does while idle: NOP has its effect at the write, any other command starts. -/
def launch (i : Instr) (s : State) : StepOutcome :=
  match i with
  | .nop => exec .nop s
  | .modexp => .next (commandStart .modexp s)
  | .modmul => .next (commandStart .modmul s)
  | .jacobi => .next (commandStart .jacobi s)
  | .sstrial => .next (commandStart .sstrial s)
  | .sstest => .next (commandStart .sstest s)

/-- R88: a write to CMD: dropped while busy, else decoded and performed with the write. -/
def cmdWrite (v : Word) (s : State) : StepOutcome :=
  if s.busy then .next (dropWrite s)
  else
    match decode v with
    | .error _ => .next (illegalWord s)
    | .ok i => launch i s

/-- R45, R46: a write to ITER. -/
def iterWrite (v : Word) (s : State) : State := if s.busy then dropWrite s else { s with iter := v }

/-- R45, R46: a write to a word of OPA below NW. -/
def opaWrite (i : Nat) (v : Word) (s : State) : State :=
  if s.busy then dropWrite s else { s with opa := writeWord s.opa i v }

/-- R45, R46: a write to a word of OPB below NW. -/
def opbWrite (i : Nat) (v : Word) (s : State) : State :=
  if s.busy then dropWrite s else { s with opb := writeWord s.opb i v }

/-- R45, R46: a write to a word of OPN below NW. -/
def opnWrite (i : Nat) (v : Word) (s : State) : State :=
  if s.busy then dropWrite s else { s with opn := writeWord s.opn i v }

/-- R45: the effect of a write of `v` to register `r`. -/
def writeReg (r : BusReg) (v : Word) (s : State) : StepOutcome :=
  match r with
  | .ctrl => .next (ctrlWrite v s)
  | .status => .next (statusWrite v s)
  | .cmd => cmdWrite v s
  | .iter => .next (iterWrite v s)
  | .opA i => .next (opaWrite i v s)
  | .opB i => .next (opbWrite i v s)
  | .opN i => .next (opnWrite i v s)
  | .id | .param | .tdone | .res _ | .reserved => .next s

/-- R45: MemWrite(off, 4, v), which answers OKAY. -/
def memWrite (off : Offset) (v : Word) (s : State) : StepOutcome :=
  writeReg (decodeOffset s.nw off) v { s with response := .okay }

/-- R49, R101: an illegal access changes no register and gets BUSERR. -/
def busError (s : State) : State := { s with response := .busErr }

/-- R41, R44, R49: a read transaction. -/
def busRead (off : Offset) (size : Nat) (s : State) : State :=
  if legalAccess off size then memRead off s else busError s

/-- R41: one bus transaction. -/
def busTxn (t : Txn) (s : State) : StepOutcome :=
  match t with
  | .read off size => .next (busRead off size s)
  | .write off size v => if legalAccess off size then memWrite off v s else .next (busError s)

end Sys2Proof.Machine
end

