-- ==== Sys2Proof/Machine/HostProgram.lean ====
section
/-! DEFINITION. The notation of host programs: lines (30_encoding.md R65), pseudo-instructions (R66), and the conversion of a
big-endian byte block to operand words (20_memory.md R48). It names host operations; it adds nothing to the engine. -/

namespace Sys2Proof.Machine

/-- The kind of a line: W or R (R65). -/
inductive LineKind where
  | w | r
deriving DecidableEq, Repr

/-- `wr OFF, VAL` (R65). -/
def wr (r : BusReg) (v : Word) : HostOp := .bus (.write (regOffset r) 4 v)

/-- `rd OFF` (R65); the value is the response. -/
def rd (r : BusReg) : HostOp := .bus (.read (regOffset r) 4)

/-- `poll OFF, MASK, VAL` (R65). -/
def pollUntil (r : BusReg) (mask val : Word) : HostOp := .poll (regOffset r) mask val

/-- R65: the encoding of a line, its kind, its offset and, for a write, its value. A poll is a repeated read
(95_test_vectors.md, program 1). -/
def lineTriple (o : HostOp) : LineKind × Offset × Option Word :=
  match o with
  | .bus (.read off _) => (.r, off, none)
  | .bus (.write off _ v) => (.w, off, some v)
  | .poll off _ _ => (.r, off, none)

/-- `ldw X, VALUE` (R66): one line per word, in increasing order; `reg` is the window. -/
def ldw (reg : Nat → BusReg) (nw value : Nat) : List HostOp :=
  (List.range nw).map fun i => wr (reg i) (readWord (wideOfNat nw value) i)

/-- `run OPNAME` (R66). -/
def runCommand (i : Instr) : List HostOp := [wr .cmd (encode i)]

/-- `wait` (R66): until DONE = 1. -/
def waitDone : List HostOp := [pollUntil .status 0x00000002#32 0x00000002#32]

/-- `ack` (R66): clear DONE. -/
def ack : List HostOp := [wr .status 0x00000002#32]

/-- `rdw RES` (R66): one read per word. -/
def rdw (nw : Nat) : List HostOp := (List.range nw).map fun i => rd (.res i)

/-- `abort` (R66): 0x2 with IE = 0, 0x3 with IE = 1. -/
def abortLine (ie : Bool) : List HostOp := [wr .ctrl (if ie then 0x00000003#32 else 0x00000002#32)]

/-- `srst` (R66). -/
def srst : List HostOp := [wr .ctrl 0x00000004#32]

/-- R48: the operand word a host writes for four bytes of a big-endian block, most significant byte first. -/
def beWord (b3 b2 b1 b0 : BitVec 8) : Word := b3 ++ b2 ++ b1 ++ b0

/-- R48: the operand words of a big-endian block, given with its LAST byte first (Bytes[NB-1], Bytes[NB-2], ...); a block
whose length is no multiple of 4 is padded with zero bytes at its most significant end. -/
def beWordsRev : List (BitVec 8) → List Word
  | b0 :: b1 :: b2 :: b3 :: rest => beWord b3 b2 b1 b0 :: beWordsRev rest
  | [b0, b1, b2] => [beWord 0#8 b2 b1 b0]
  | [b0, b1] => [beWord 0#8 0#8 b1 b0]
  | [b0] => [beWord 0#8 0#8 0#8 b0]
  | [] => []

/-- R48: the operand words of a big-endian block Bytes[0..NB-1], Bytes[0] most significant. -/
def operandWords (bytes : List (BitVec 8)) : List Word := beWordsRev bytes.reverse

end Sys2Proof.Machine
end

