-- ==== Sys2Proof/Machine/Agents.lean ====
section
/-! DEFINITION. The two agents and their interleaving (00_scope.md R13, 20_memory.md R54), the platform's reset input
(70_reset_and_hazards.md R111), and how a command word is placed so that the next step runs it. -/

namespace Sys2Proof.Machine

/-- R96: the engine's step, enabled exactly while BUSY = 1: it runs ACTIVE_OP. Without BUSY the engine has no step, and its
turn passes (R92; log 4). -/
def engineStep (s : State) : StepOutcome :=
  if s.busy then
    match s.activeOp with
    | some i => exec i s
    | none => .fault .noActiveOp
  else .next s

/-- R65: whether the read of a poll returned what the poll waits for. A read that got BUSERR returned nothing (log 14). -/
def pollMet (r : Response) (mask val : Word) : Bool :=
  match r with
  | .data v => (v &&& mask) == val
  | .quiet => false
  | .okay => false
  | .busErr => false

/-- One host operation, `rest` being what the host does after it. A poll whose value has not come stays at the head. -/
def hostOp (o : HostOp) (rest : List HostOp) (s : State) : StepOutcome :=
  match o with
  | .bus t => busTxn t { s with host := rest }
  | .poll off mask val =>
    let s' := busRead off 4 s
    .next (if pollMet s'.response mask val then { s' with host := rest } else s')

/-- The host's step: its next operation. The engine responds to no transaction while its reset input is asserted (R111),
and a model gives such a transaction no step (U14). A host with nothing to do lets its turn pass (log 4). -/
def hostStep (s : State) : StepOutcome :=
  match s.host with
  | [] => .next s
  | o :: rest => if s.resetPin then .refused .transactionInReset else hostOp o rest s

/-- R111: the reset input is asserted: a running command is discarded without a completion, and the registers have their
reset values from here on (log 10). -/
def assertReset (s : State) : State := { resetRegs s with resetPin := true }

/-- R111: the reset input is released, and every piece of state has the value of R110. An input that is not asserted has no
such edge (log 10). -/
def releaseReset (s : State) : State := if s.resetPin then { resetRegs s with resetPin := false } else s

/-- One step of the total order of R54. Where the schedule says nothing, a running command completes, else the host goes on:
so a command completes at last (R120's weak fairness; log 3). -/
def takeTurn (s : State) : StepOutcome :=
  match s.turns with
  | [] => if s.busy then engineStep s else hostStep s
  | .host :: ts => hostStep { s with turns := ts }
  | .engine :: ts => engineStep { s with turns := ts }
  | .assertReset :: ts => .next (assertReset { s with turns := ts })
  | .releaseReset :: ts => .next (releaseReset { s with turns := ts })

/-- Command `i` started (R88) and the engine's turn next: the engine's step fetches its command from ACTIVE_OP (R22). -/
def placeRunning (i : Instr) (s : State) : State :=
  { commandStart i s with resetPin := false, turns := .engine :: s.turns }

/-- An idle engine, and the host's turn next, with a CMD write of `v` to issue. -/
def placeWrite (v : Word) (s : State) : State :=
  { s with
    busy := false
    activeOp := none
    resetPin := false
    host := .bus (.write (regOffset .cmd) 4 v) :: s.host
    turns := .host :: s.turns }

/-- A command word placed where the very next step runs it (log 5): a command that runs in the engine's step is in ACTIVE_OP,
as its CMD write leaves it; NOP and an illegal word act at their CMD write, so that write is pending. -/
def placeWord (v : Word) (s : State) : State :=
  match decode v with
  | .error _ => placeWrite v s
  | .ok .nop => placeWrite v s
  | .ok .modexp => placeRunning .modexp s
  | .ok .modmul => placeRunning .modmul s
  | .ok .jacobi => placeRunning .jacobi s
  | .ok .sstrial => placeRunning .sstrial s
  | .ok .sstest => placeRunning .sstest s

end Sys2Proof.Machine
end

