-- ==== Sys2Proof/Safety.lean ====
section
/-! DEFINITION. What holds of every state a run from reset reaches, in the spec's own terms. -/

namespace Sys2Proof.Machine

/-- R59, R60, R90: an illegal command word, in the spec's own bits. -/
def IllegalCommandWord (v : Word) : Prop := v.extractLsb 31 4 ≠ 0#28 ∨ 6 ≤ (v.extractLsb 3 0).toNat

/-- What no command writes, whatever its outcome (R19, R35, R36, R46, R96, R97): the operand registers, ITER, IE, WBUSY,
and everything outside the engine. -/
structure CommandFrame (s t : State) : Prop where
  opa : t.opa = s.opa
  opb : t.opb = s.opb
  opn : t.opn = s.opn
  iter : t.iter = s.iter
  ie : t.ie = s.ie
  wbusy : t.wbusy = s.wbusy
  nw : t.nw = s.nw
  resetPin : t.resetPin = s.resetPin
  host : t.host = s.host
  turns : t.turns = s.turns
  response : t.response = s.response

/-- The next step is an edge of the reset input (R111). -/
def State.resetTurn (s : State) : Prop := ∃ ts, s.turns = .assertReset :: ts ∨ s.turns = .releaseReset :: ts

/-- The next step is the host's: it is scheduled, or nothing is and no command runs (R13, R54; log 3). -/
def State.hostTurn (s : State) : Prop := (∃ ts, s.turns = .host :: ts) ∨ (s.turns = [] ∧ s.busy = false)

/-- The next step is the host's 32-bit write of `v` to register `r` (R45). -/
def State.hostWrites (s : State) (r : BusReg) (v : Word) : Prop :=
  s.hostTurn ∧ s.resetPin = false ∧
    ∃ off rest, s.host = .bus (.write off 4 v) :: rest ∧ off.toNat % 4 = 0 ∧ decodeOffset s.nw off = r

/-- The four wide registers have NW words each, for a legal width (R5, R6, R14). -/
structure State.WidthOk (s : State) : Prop where
  width : legalWidth s.nw = true
  opa : s.opa.length = s.nw
  opb : s.opb.length = s.nw
  opn : s.opn.length = s.nw
  res : s.res.length = s.nw

/-- The invariant of the engine: the spec's, but for the clause `reset_quiet`, which is the model's choice (log 10). -/
structure State.Inv (s : State) : Prop where
  widthOk : s.WidthOk
  /-- BUSY = 1 exactly while a command is in progress (R21, R29). -/
  busy_iff_active : s.busy = s.activeOp.isSome
  /-- NOP has no busy phase (R14, R29). -/
  active_ne_nop : s.activeOp ≠ some .nop
  /-- DONE = 1 and BUSY = 1 never hold together (R30). -/
  not_busy_and_done : ¬(s.busy = true ∧ s.done = true)
  /-- A command start clears the result fields of STATUS, and nothing sets them while it runs (R31 to R34, R88). -/
  busy_clears : s.busy = true → s.err = .noError ∧ s.verdict = false ∧ s.jsym = .noSymbol ∧ s.reason = .noReason
  /-- After an error no result is left (R97). -/
  error_zeroes : s.err ≠ .noError →
    s.res = zeroWords s.nw ∧ s.verdict = false ∧ s.jsym = .noSymbol ∧ s.reason = .noReason ∧ s.tdone = 0#32
  /-- VERDICT is 1 exactly for the reasons TRIVIAL and PASSED (R32, R34, R83, R84). -/
  verdict_iff_reason : s.verdict = true ↔ s.reason = .trivial ∨ s.reason = .passed
  /-- A candidate decided without a trial leaves RES = 0 and TDONE = 0 (R83, R84). -/
  precheck_zeroes : s.reason = .rejected ∨ s.reason = .trivial → s.res = zeroWords s.nw ∧ s.tdone = 0#32
  /-- A symbol is reported only by JACOBI, and by SSTRIAL after its trial (R33, R79, R83); both write TDONE = 0. -/
  symbol_reason : s.jsym ≠ .noSymbol →
    (s.reason = .noReason ∨ s.reason = .mismatch ∨ s.reason = .passed) ∧ s.tdone = 0#32
  /-- While idle, TDONE is above 0 only after an SSTEST that ran trials (R37, R84). -/
  tdone_reason : s.busy = false → s.tdone ≠ 0#32 →
    s.reason = .passed ∨ s.reason = .mismatch ∨ s.reason = .jacobiUndefined
  /-- While the reset input is asserted the engine is idle and DONE = 0, so irq is low. DESIGN CHOICE (log 10): the model resets
  the registers from the assertion on, where R111 fixes them only at the release. -/
  reset_quiet : s.resetPin = true → s.busy = false ∧ s.done = false

end Sys2Proof.Machine
end

