-- ==== Sys2Proof/Certificates/Slice0/Obligations.lean ====
section
/-! DEFINITION. What is to be proved of the model. Each docstring names the rule of spec/ that the statement formalises.
The engine has no memory (20_memory.md R53), so a frame speaks of registers, and of the host's side, alone. -/

open Sys2Proof Sys2Proof.Machine

/-! ## Encoding -/

/-- R61, R59, R60: the six command words written out from the opcode map, and four illegal words. -/
def Obligations.DecodesTheWordsOfTheOpcodeMap : Prop :=
  decode 0x00000000#32 = .ok .nop ∧ decode 0x00000001#32 = .ok .modexp ∧ decode 0x00000002#32 = .ok .modmul ∧
  decode 0x00000003#32 = .ok .jacobi ∧ decode 0x00000004#32 = .ok .sstrial ∧ decode 0x00000005#32 = .ok .sstest ∧
  decode 0x00000006#32 = .error .reservedOpcode ∧ decode 0x0000000F#32 = .error .reservedOpcode ∧
  decode 0x00000010#32 = .error .reservedBits ∧ decode 0xFFFFFFFF#32 = .error .reservedBits

/-- R58: a word is legal iff v[31:4] = 0 and v[3:0] <= 5, it then selects the command whose opcode is v[3:0], and the decoder
and the encoder agree on every command and on every 32-bit word. -/
def Obligations.DecodeAgreesWithEncode : Prop :=
  (∀ v : Word, (∃ i, decode v = .ok i) ↔ v.extractLsb 31 4 = 0#28 ∧ (v.extractLsb 3 0).toNat ≤ 5) ∧
  (∀ (v : Word) (i : Instr), decode v = .ok i ↔ v = encode i) ∧
  (∀ (v : Word) (i : Instr), decode v = .ok i → (encode i).toNat = (v.extractLsb 3 0).toNat) ∧
  (encode .nop = 0x00000000#32 ∧ encode .modexp = 0x00000001#32 ∧ encode .modmul = 0x00000002#32 ∧
    encode .jacobi = 0x00000003#32 ∧ encode .sstrial = 0x00000004#32 ∧ encode .sstest = 0x00000005#32)

/-! ## The step -/

/-- A word that decodes to command `i`, placed for the next step, is run by that step: NOP by its CMD write on an idle engine
(R88, R89), any other command by the engine's step on the state its start leaves (R88, R96). `withFetchWord` is the model's
(log 5). -/
def Obligations.StepRunsThePlacedCommand : Prop :=
  ∀ (s : State) (v : Word) (i : Instr), decode v = .ok i →
    step (s.withFetchWord 32 v.toNat) =
      if i = .nop then
        exec .nop { s with busy := false, activeOp := none, resetPin := false, response := .okay }
      else exec i { commandStart i s with resetPin := false }

/-- R96: the engine's step is enabled exactly while BUSY = 1, runs ACTIVE_OP on the operands and the draws, and ends in the
completion or the error completion of its outcome, all writes at one point. -/
def Obligations.EngineStepCompletesActiveCommand : Prop :=
  (∀ (s : State) (ts : List Turn), s.turns = .engine :: ts → s.busy = false → step s = .next { s with turns := ts }) ∧
  (∀ (s : State) (ts : List Turn) (i : Instr), s.turns = .engine :: ts → s.busy = true → s.activeOp = some i →
    step s = exec i { s with turns := ts }) ∧
  (∀ s : State, exec .modexp s = .next (finish (modexpResult (opA s) (opB s) (opN s)) s)) ∧
  (∀ s : State, exec .modmul s = .next (finish (modmulResult (opA s) (opB s) (opN s)) s)) ∧
  (∀ s : State, exec .jacobi s = .next (finish (jacobiResult (opA s) (opN s)) s)) ∧
  (∀ s : State, exec .sstrial s = .next (finish (sstrialResult (opN s) (opA s)) s)) ∧
  (∀ s : State, exec .sstest s =
    .next (finish (sstestResult Config.witness (opN s) s.iter.toNat s.draws).1
      { s with draws := (sstestResult Config.witness (opN s) s.iter.toNat s.draws).2 })) ∧
  (∀ (s : State) (code : ErrCode), finish (.raise code) s = errorComplete code s) ∧
  (∀ (s : State) (r : Nat) (v : Bool) (js : Jsym) (rs : Reason) (t : Nat),
    finish (.complete r v js rs t) s =
      { s with res := wideOfNat s.nw r, verdict := v, jsym := js, reason := rs, tdone := BitVec.ofNat 32 t,
               err := .noError, busy := false, done := true, activeOp := none })

/-- R54, R65: on the host's turn its next operation is performed as one transaction, and a poll is one read that ends the
poll when the value it waits for has come. The queue and the schedule are the model's (log 2). -/
def Obligations.HostTurnPerformsNextOperation : Prop :=
  (∀ (s : State) (ts : List Turn) (tx : Txn) (rest : List HostOp),
    s.turns = .host :: ts → s.resetPin = false → s.host = .bus tx :: rest →
    step s = busTxn tx { s with turns := ts, host := rest }) ∧
  (∀ (s : State) (tx : Txn) (rest : List HostOp),
    s.turns = [] → s.busy = false → s.resetPin = false → s.host = .bus tx :: rest →
    step s = busTxn tx { s with host := rest }) ∧
  (∀ (s : State) (ts : List Turn) (r : BusReg) (mask val : Word) (rest : List HostOp),
    s.turns = .host :: ts → s.resetPin = false → s.host = pollUntil r mask val :: rest →
    decodeOffset s.nw (regOffset r) = r → readsFree r s = false → (regOffset r).toNat % 4 = 0 →
    step s = .next { s with
      turns := ts
      response := .data (readValue r s)
      host := if (readValue r s &&& mask) = val then rest else s.host })

/-- R13, U8, U14: the machine stops only where the spec gives no step: on a host transaction while the reset input is
asserted. From a state of the invariant no step faults, and a refusal names that cause (the refusal is the model's form of
U14, log 10; the invariant rules out BUSY without ACTIVE_OP, log 11). -/
def Obligations.StepStopsOnlyOnTransactionInReset : Prop :=
  ∀ s : State, s.Inv →
    (∃ t, step s = .next t) ∨
    (step s = .refused .transactionInReset ∧ s.resetPin = true ∧ s.host ≠ [] ∧
      (s.turns = [] ∨ ∃ ts, s.turns = .host :: ts))

/-! ## Command start, NOP, illegal words -/

/-- R88: a write to CMD: dropped while busy; while idle an illegal word completes with ILLEGAL_COMMAND, NOP completes, and any
other command starts. -/
def Obligations.CmdWriteStartsCommand : Prop :=
  (∀ (s : State) (v : Word), s.busy = true →
    busTxn (.write 0x0010#15 4 v) s = .next { s with response := .okay, wbusy := true }) ∧
  (∀ (s : State) (v : Word), s.busy = false → IllegalCommandWord v →
    busTxn (.write 0x0010#15 4 v) s = .next (errorComplete .illegalCommand { s with response := .okay })) ∧
  (∀ s : State, s.busy = false →
    busTxn (.write 0x0010#15 4 0x00000000#32) s = .next { s with response := .okay, err := .noError, done := true }) ∧
  (∀ (s : State) (i : Instr), s.busy = false → i ≠ .nop →
    busTxn (.write 0x0010#15 4 (encode i)) s =
      .next { s with response := .okay, busy := true, done := false, err := .noError, verdict := false,
                     jsym := .noSymbol, reason := .noReason, activeOp := some i })

/-- R89: NOP sets ERR = 0 and DONE = 1 and leaves everything else; its word is dropped while busy; from reset STATUS then
reads 0x0000_0002, and with IE = 1 it asserts irq. -/
def Obligations.NopCompletesAtOnce : Prop :=
  (∀ s : State, exec .nop s = .next { s with err := .noError, done := true }) ∧
  (∀ s : State, s.busy = false → busTxn (.write 0x0010#15 4 0x00000000#32) s = exec .nop { s with response := .okay }) ∧
  (∀ s : State, s.busy = true →
    busTxn (.write 0x0010#15 4 0x00000000#32) s = .next { s with response := .okay, wbusy := true }) ∧
  (∀ t : State, exec .nop State.reset = .next t → statusWord t = 0x00000002#32) ∧
  (∀ s t : State, s.ie = true → exec .nop s = .next t → irq t = true)

/-- R90: an illegal word written while idle leaves ERR = 1 and DONE = 1, so STATUS reads 0x12 below WBUSY, RES = 0 and
TDONE = 0; written while busy it only sets WBUSY. -/
def Obligations.IllegalWordCompletesWithError : Prop :=
  ∀ (s : State) (v : Word), IllegalCommandWord v →
    (s.busy = false → ∃ t, busTxn (.write 0x0010#15 4 v) s = .next t ∧
      t.err = .illegalCommand ∧ t.done = true ∧ t.busy = false ∧ wideVal t.res = 0 ∧ t.verdict = false ∧
      t.jsym = .noSymbol ∧ t.reason = .noReason ∧ t.tdone = 0#32 ∧
      statusWord t = (if s.wbusy then 0x00010012#32 else 0x00000012#32)) ∧
    (s.busy = true → busTxn (.write 0x0010#15 4 v) s = .next { s with response := .okay, wbusy := true })

/-- R97: the error completion, and that it is what a raised error, an illegal word and an abort end in. -/
def Obligations.ErrorCompletionZeroesResults : Prop :=
  (∀ (s : State) (code : ErrCode), finish (.raise code) s = errorComplete code s) ∧
  (∀ s : State, illegalWord s = errorComplete .illegalCommand s ∧ abort s = errorComplete .aborted s) ∧
  ∀ (s : State) (code : ErrCode),
    errorComplete code s =
      { s with res := zeroWords s.nw, verdict := false, jsym := .noSymbol, reason := .noReason, tdone := 0#32,
               err := code, busy := false, done := true, activeOp := none } ∧
    wideVal (errorComplete code s).res = 0

/-! ## MODEXP, MODMUL -/

/-- The loop of R68 computes the power, for every base, exponent and modulus: an inference the spec marks as its own, "[derived:
from rule R68 by the loop invariant ...]" (R69). -/
def Obligations.ModExpLoopIsThePower : Prop :=
  ∀ b e m : Nat, 1 ≤ m → modExpF b e m = b ^ e % m

/-- R72: MODEXP writes OPA^OPB mod OPN, or INVALID_MODULUS exactly when OPN = 0. -/
def Obligations.ModexpWritesThePower : Prop :=
  ∀ s : State,
    (opN s ≠ 0 → exec .modexp s =
      .next { s with res := wideOfNat s.nw (opA s ^ opB s % opN s), verdict := false, jsym := .noSymbol,
                     reason := .noReason, tdone := 0#32, err := .noError, busy := false, done := true,
                     activeOp := none }) ∧
    (opN s = 0 → exec .modexp s = .next (errorComplete .invalidModulus s))

/-- R73: MODMUL writes OPA * OPB mod OPN, or INVALID_MODULUS exactly when OPN = 0. -/
def Obligations.ModmulWritesTheProduct : Prop :=
  ∀ s : State,
    (opN s ≠ 0 → exec .modmul s =
      .next { s with res := wideOfNat s.nw (opA s * opB s % opN s), verdict := false, jsym := .noSymbol,
                     reason := .noReason, tdone := 0#32, err := .noError, busy := false, done := true,
                     activeOp := none }) ∧
    (opN s = 0 → exec .modmul s = .next (errorComplete .invalidModulus s))

/-- RES holds the exact result, below the modulus, at any legal width (R18): that nothing is truncated is an inference the spec
marks as its own, "[derived: from rule R67 and rule R68 and 00_scope.md rule R5]" (R70). -/
def Obligations.ResHoldsTheExactResult : Prop :=
  ∀ s : State, s.WidthOk → opN s ≠ 0 →
    (∃ t, exec .modexp s = .next t ∧ wideVal t.res = opA s ^ opB s % opN s ∧ wideVal t.res < opN s) ∧
    (∃ t, exec .modmul s = .next t ∧ wideVal t.res = opA s * opB s % opN s ∧ wideVal t.res < opN s)

/-! ## JACOBI -/

/-- The reduction of R76 computes the Jacobi symbol of number theory: a sentence the spec marks "[from general knowledge, not in
source]" (R77, GK1). -/
def Obligations.JacobiLoopIsTheJacobiSymbol : Prop :=
  ∀ a n : Nat, n % 2 = 1 → jacobiF a n = jacobiSym (a : Int) n

/-- The symbol is 0 exactly when the gcd is not 1, and is +1 or -1 otherwise: an inference the spec marks as its own, "[derived:
each reduction ... keeps the gcd of the pair ...]" (R77). -/
def Obligations.JacobiIsZeroExactlyWhenNotCoprime : Prop :=
  ∀ a n : Nat, n % 2 = 1 →
    (jacobiF a n = 0 ↔ gcdF a n ≠ 1) ∧ (gcdF a n = 1 → jacobiF a n = 1 ∨ jacobiF a n = -1)

/-- R78: MapJ and EncJ. -/
def Obligations.SymbolIsMappedAndEncoded : Prop :=
  (∀ n : Nat, mapJ 1 n = 1 % n ∧ mapJ (-1) n = n - 1 ∧ mapJ 0 n = 0) ∧
  jsymBits (encJ 1) = 0b01#2 ∧ jsymBits (encJ (-1)) = 0b11#2 ∧ jsymBits (encJ 0) = 0b00#2

/-- R79, R99: JACOBI's checks in their order, and on success the symbol in RES and JSYM. The symbol is given as that of number
theory, which the spec marks "[from general knowledge, not in source]" (R77, GK1). -/
def Obligations.JacobiWritesTheSymbol : Prop :=
  ∀ s : State,
    (opN s = 0 → exec .jacobi s = .next (errorComplete .invalidModulus s)) ∧
    (opN s ≠ 0 → opN s % 2 = 0 → exec .jacobi s = .next (errorComplete .evenModulus s)) ∧
    (opN s % 2 = 1 → Nat.gcd (opA s) (opN s) ≠ 1 → exec .jacobi s = .next (errorComplete .jacobiUndefined s)) ∧
    (opN s % 2 = 1 → jacobiSym (opA s) (opN s) = 1 → exec .jacobi s =
      .next { s with res := wideOfNat s.nw (1 % opN s), jsym := .plus, verdict := false, reason := .noReason,
                     tdone := 0#32, err := .noError, busy := false, done := true, activeOp := none }) ∧
    (opN s % 2 = 1 → jacobiSym (opA s) (opN s) = -1 → exec .jacobi s =
      .next { s with res := wideOfNat s.nw (opN s - 1), jsym := .minus, verdict := false, reason := .noReason,
                     tdone := 0#32, err := .noError, busy := false, done := true, activeOp := none })

/-- The source's known values; for n = 1 the symbol is +1 while the mapped RES is 0: the spec marks them as its own inference,
"[derived: from rule R76, worked in 95_test_vectors.md]" (R80). -/
def Obligations.JacobiKnownValues : Prop :=
  (∀ n : Nat, n % 2 = 1 → jacobiF 1 n = 1) ∧ jacobiF 2 15 = 1 ∧ jacobiF 2 7 = 1 ∧ mapJ (jacobiF 1 1) 1 = 0

/-! ## SSTRIAL, SSTEST -/

/-- R81: the classes of a candidate: even candidates but 2, and those below 2, are rejected, 2 is trivial, the others run. -/
def Obligations.PrecheckClassifiesCandidates : Prop :=
  ∀ p : Nat,
    (precheck p = .rejected ↔ p < 2 ∨ (p % 2 = 0 ∧ p ≠ 2)) ∧
    (precheck p = .trivial ↔ p = 2) ∧
    (precheck p = .run ↔ p % 2 = 1 ∧ 3 ≤ p)

/-- R82: a trial of an odd p >= 3 with a witness in its range: without a symbol exactly when the gcd is not 1, else it passes
exactly when the mapped symbol equals a^((p-1)/2) mod p; j and x are what it reports. -/
def Obligations.TrialComparesSymbolWithPower : Prop :=
  ∀ p a : Nat, p % 2 = 1 → 3 ≤ p → 1 ≤ a → a ≤ p - 1 →
    (Nat.gcd a p ≠ 1 → trialF p a = .undefinedSymbol) ∧
    (Nat.gcd a p = 1 → mapJ (jacobiF a p) p = a ^ ((p - 1) / 2) % p →
      trialF p a = .pass (jacobiF a p) (a ^ ((p - 1) / 2) % p)) ∧
    (Nat.gcd a p = 1 → mapJ (jacobiF a p) p ≠ a ^ ((p - 1) / 2) % p →
      trialF p a = .mismatch (jacobiF a p) (a ^ ((p - 1) / 2) % p))

/-- R83: SSTRIAL in all its cases; the candidate is OPN, the witness OPA. -/
def Obligations.SstrialReportsItsTrial : Prop :=
  ∀ s : State,
    ((opN s < 2 ∨ (opN s % 2 = 0 ∧ opN s ≠ 2)) → exec .sstrial s =
      .next (complete 0 false .noSymbol .rejected 0 s)) ∧
    (opN s = 2 → exec .sstrial s = .next (complete 0 true .noSymbol .trivial 0 s)) ∧
    (opN s % 2 = 1 → 3 ≤ opN s → (opA s = 0 ∨ opA s > opN s - 1) →
      exec .sstrial s = .next (errorComplete .witnessRange s)) ∧
    (opN s % 2 = 1 → 3 ≤ opN s → 1 ≤ opA s → opA s ≤ opN s - 1 → Nat.gcd (opA s) (opN s) ≠ 1 →
      exec .sstrial s = .next (complete 0 false .noSymbol .jacobiUndefined 0 s)) ∧
    (opN s % 2 = 1 → 3 ≤ opN s → 1 ≤ opA s → opA s ≤ opN s - 1 → Nat.gcd (opA s) (opN s) = 1 →
      exec .sstrial s = .next
        (if mapJ (jacobiF (opA s) (opN s)) (opN s) = opA s ^ ((opN s - 1) / 2) % opN s then
          complete (opA s ^ ((opN s - 1) / 2) % opN s) true (encJ (jacobiF (opA s) (opN s))) .passed 0 s
        else
          complete (opA s ^ ((opN s - 1) / 2) % opN s) false (encJ (jacobiF (opA s) (opN s))) .mismatch 0 s))

/-- R84, R8, U1: a drawn witness lies in {1, ..., p - 1}, and the model admits every element of that set at every draw. The
source is a free value (log 7). -/
def Obligations.DrawnWitnessIsAnyValueInRange : Prop :=
  (∀ (source : Nat → Nat) (p c : Nat), 2 ≤ p → 1 ≤ drawWitness source p c ∧ drawWitness source p c ≤ p - 1) ∧
  (∀ (witnesses : Nat → Nat) (p : Nat), (∀ c, 1 ≤ witnesses c ∧ witnesses c ≤ p - 1) →
    ∃ source : Nat → Nat, ∀ c, drawWitness source p c = witnesses c)

/-- R84, for a rejected or trivial candidate and for ITER = 0 (U6): no witness is drawn. -/
def Obligations.SstestWithoutTrials : Prop :=
  ∀ s : State,
    ((opN s < 2 ∨ (opN s % 2 = 0 ∧ opN s ≠ 2)) → exec .sstest s = .next (complete 0 false .noSymbol .rejected 0 s)) ∧
    (opN s = 2 → exec .sstest s = .next (complete 0 true .noSymbol .trivial 0 s)) ∧
    (opN s % 2 = 1 → 3 ≤ opN s → s.iter = 0#32 → exec .sstest s = .next (complete 0 true .noSymbol .passed 0 s))

/-- R84, for an odd candidate p >= 3, every source of witnesses and k trials: when every trial passes, the verdict is probably
prime, RES the last witness and TDONE = k; at the first failing trial m the command stops, RES is its witness, TDONE = m and
REASON is its reason. The source is a free value (log 7); the draws used are counted (log 9). -/
def Obligations.SstestStopsAtFirstFailingTrial : Prop :=
  ∀ (source : Nat → Nat) (p k c : Nat), p % 2 = 1 → 3 ≤ p →
    ((∀ j < k, trialPasses p (drawWitness source p (c + j)) = true) →
      sstestResult source p k c =
        (.complete (if k = 0 then 0 else drawWitness source p (c + (k - 1))) true .noSymbol .passed k, c + k)) ∧
    (∀ m < k, (∀ j < m, trialPasses p (drawWitness source p (c + j)) = true) →
      trialPasses p (drawWitness source p (c + m)) = false →
      sstestResult source p k c =
        (.complete (drawWitness source p (c + m)) false .noSymbol
          (if Nat.gcd (drawWitness source p (c + m)) p ≠ 1 then .jacobiUndefined else .mismatch) m, c + m + 1))

/-- R86: for an odd candidate p >= 3 the verdict is probably prime exactly when every drawn witness passes; TDONE never
exceeds ITER, and no error is reported (R84, R87). -/
def Obligations.SstestVerdictIsThatOfItsWitnesses : Prop :=
  ∀ s : State, opN s % 2 = 1 → 3 ≤ opN s →
    ∃ t, exec .sstest s = .next t ∧ t.err = .noError ∧ t.tdone.toNat ≤ s.iter.toNat ∧
      (t.verdict = true ↔
        ∀ j < s.iter.toNat, trialPasses (opN s) (drawWitness Config.witness (opN s) (s.draws + j)) = true)

/-- An odd prime passes every trial, so SSTEST of it answers probably prime with TDONE = ITER under every sequence of draws;
SSTEST of 2 answers probably prime with REASON = 2. The spec rests this on Euler's criterion "[from general knowledge, not in
source]" and marks it "[derived: from rule R84 and the criterion]" (R85, GK2). -/
def Obligations.PrimesPassEveryTrial : Prop :=
  (∀ p a : Nat, p.Prime → p ≠ 2 → 1 ≤ a → a ≤ p - 1 → trialPasses p a = true) ∧
  (∀ s : State, (opN s).Prime → opN s ≠ 2 →
    ∃ t, exec .sstest s = .next t ∧ t.verdict = true ∧ t.reason = .passed ∧ t.tdone = s.iter ∧ t.err = .noError) ∧
  (∀ s : State, opN s = 2 → ∃ t, exec .sstest s = .next t ∧ t.verdict = true ∧ t.reason = .trivial)

/-! ## Every command: completion, frame, errors, operands -/

/-- R87, R96, R100: every command but NOP, from every state, ends in a completion: DONE = 1, BUSY = 0, no ACTIVE_OP; and the
completion does not depend on whether the start (R88) came before it: nothing of the start is left. -/
def Obligations.EveryCommandCompletes : Prop :=
  ∀ (i : Instr) (s : State), i ≠ .nop →
    (∃ t, exec i s = .next t ∧ t.done = true ∧ t.busy = false ∧ t.activeOp = none) ∧
    exec i (commandStart i s) = exec i s

/-- R19, R89, R96, R97: the frame of all six commands: no operand register, ITER, IE, WBUSY nor anything outside the engine
changes; only SSTEST uses up draws; NOP leaves the results, the verdict fields, BUSY and ACTIVE_OP too. -/
def Obligations.CommandsLeaveTheRest : Prop :=
  ∀ (i : Instr) (s t : State), exec i s = .next t →
    CommandFrame s t ∧ (i ≠ .sstest → t.draws = s.draws) ∧ s.draws ≤ t.draws ∧
    (i = .nop → t.res = s.res ∧ t.verdict = s.verdict ∧ t.jsym = s.jsym ∧ t.reason = s.reason ∧ t.tdone = s.tdone ∧
      t.busy = s.busy ∧ t.activeOp = s.activeOp)

/-- R98, R99: which command reports which error, and exactly when; the first condition in R99's order decides. -/
def Obligations.ErrorsHaveExactlyTheirCauses : Prop :=
  ∀ (i : Instr) (s t : State), exec i s = .next t →
    (t.err = .invalidModulus ↔ (i = .modexp ∨ i = .modmul ∨ i = .jacobi) ∧ opN s = 0) ∧
    (t.err = .evenModulus ↔ i = .jacobi ∧ opN s ≠ 0 ∧ opN s % 2 = 0) ∧
    (t.err = .jacobiUndefined ↔ i = .jacobi ∧ opN s % 2 = 1 ∧ Nat.gcd (opA s) (opN s) ≠ 1) ∧
    (t.err = .witnessRange ↔
      i = .sstrial ∧ opN s % 2 = 1 ∧ 3 ≤ opN s ∧ (opA s = 0 ∨ opA s > opN s - 1)) ∧
    t.err ≠ .illegalCommand ∧ t.err ≠ .aborted

/-- R63: a register a command does not read does not change its outcome. -/
def Obligations.UnlistedRegistersAreIgnored : Prop :=
  (∀ (s t : State) (a b n : List Word) (k : Word), exec .nop s = .next t →
    exec .nop { s with opa := a, opb := b, opn := n, iter := k } = .next { t with opa := a, opb := b, opn := n, iter := k }) ∧
  (∀ (s t : State) (k : Word), exec .modexp s = .next t → exec .modexp { s with iter := k } = .next { t with iter := k }) ∧
  (∀ (s t : State) (k : Word), exec .modmul s = .next t → exec .modmul { s with iter := k } = .next { t with iter := k }) ∧
  (∀ (s t : State) (b : List Word) (k : Word), exec .jacobi s = .next t →
    exec .jacobi { s with opb := b, iter := k } = .next { t with opb := b, iter := k }) ∧
  (∀ (s t : State) (b : List Word) (k : Word), exec .sstrial s = .next t →
    exec .sstrial { s with opb := b, iter := k } = .next { t with opb := b, iter := k }) ∧
  (∀ (s t : State) (a b : List Word), exec .sstest s = .next t →
    exec .sstest { s with opa := a, opb := b } = .next { t with opa := a, opb := b })

/-! ## Bus access -/

/-- R49, R101: an access that is misaligned or not of 4 bytes changes no register and gets BUSERR; every other access gets a
response OKAY, with data for a read. -/
def Obligations.OnlyIllegalAccessGetsBusErr : Prop :=
  ∀ (s : State) (off : Offset) (size : Nat) (v : Word),
    (off.toNat % 4 ≠ 0 ∨ size ≠ 4 →
      busTxn (.read off size) s = .next { s with response := .busErr } ∧
      busTxn (.write off size v) s = .next { s with response := .busErr }) ∧
    (off.toNat % 4 = 0 → size = 4 →
      (∃ t d, busTxn (.read off size) s = .next t ∧ t.response = .data d) ∧
      (∃ t, busTxn (.write off size v) s = .next t ∧ t.response = .okay))

/-- R27, R28: ID always reads 0x5353_5054 and PARAM reads NW in bits 15:0, 0x40 at the default width; both ignore writes. -/
def Obligations.IdAndParamAreConstants : Prop :=
  (∀ (s : State) (v : Word),
    busTxn (.read 0x0000#15 4) s = .next { s with response := .data 0x53535054#32 } ∧
    busTxn (.write 0x0000#15 4 v) s = .next { s with response := .okay } ∧
    busTxn (.read 0x0004#15 4) s = .next { s with response := .data (0#16 ++ BitVec.ofNat 16 s.nw) } ∧
    busTxn (.write 0x0004#15 4 v) s = .next { s with response := .okay }) ∧
  paramWord State.reset = 0x00000040#32

/-- R26: a read of CTRL returns IE in bit 0 and 0 elsewhere, and two written values that agree in bits 2:0 do the same. -/
def Obligations.CtrlReservedBitsAreIgnored : Prop :=
  (∀ s : State, busTxn (.read 0x0008#15 4) s = .next { s with response := .data (0#31 ++ BitVec.ofBool s.ie) }) ∧
  (∀ (s : State) (v w : Word), v.extractLsb 2 0 = w.extractLsb 2 0 →
    busTxn (.write 0x0008#15 4 v) s = busTxn (.write 0x0008#15 4 w) s)

/-- R44, with R20, R36, R37 and R47: what an aligned 32-bit read of STATUS, CMD, ITER and TDONE returns; no register changes.
A read of TDONE while busy is a draw (log 8). -/
def Obligations.ControlRegisterReads : Prop :=
  ∀ s : State,
    busTxn (.read 0x000C#15 4) s = .next { s with response := .data (statusWord s) } ∧
    busTxn (.read 0x0010#15 4) s = .next { s with response := .data 0#32 } ∧
    busTxn (.read 0x0014#15 4) s = .next { s with response := .data s.iter } ∧
    (s.busy = false → busTxn (.read 0x0018#15 4) s = .next { s with response := .data s.tdone }) ∧
    (s.busy = true → busTxn (.read 0x0018#15 4) s =
      .next { s with response := .data (Config.busyRead s.draws), draws := s.draws + 1 })

/-- R43, R44: a read of window word i below NW returns bits 32i+31 : 32i of the register; a RES word read while busy is a
draw (R47, log 8). -/
def Obligations.WindowReads : Prop :=
  ∀ (s : State) (i : Nat), s.WidthOk → i < s.nw →
    busTxn (.read (BitVec.ofNat 15 (0x1000 + 4 * i)) 4) s =
      .next { s with response := .data (BitVec.ofNat 32 (opA s / 2 ^ (32 * i))) } ∧
    busTxn (.read (BitVec.ofNat 15 (0x2000 + 4 * i)) 4) s =
      .next { s with response := .data (BitVec.ofNat 32 (opB s / 2 ^ (32 * i))) } ∧
    busTxn (.read (BitVec.ofNat 15 (0x3000 + 4 * i)) 4) s =
      .next { s with response := .data (BitVec.ofNat 32 (opN s / 2 ^ (32 * i))) } ∧
    (s.busy = false → busTxn (.read (BitVec.ofNat 15 (0x4000 + 4 * i)) 4) s =
      .next { s with response := .data (BitVec.ofNat 32 (wideVal s.res / 2 ^ (32 * i))) }) ∧
    (s.busy = true → busTxn (.read (BitVec.ofNat 15 (0x4000 + 4 * i)) 4) s =
      .next { s with response := .data (Config.busyRead s.draws), draws := s.draws + 1 })

/-- R44, R52: a read, legal or not, changes no register: only the response, and the draw counter where it drew. -/
def Obligations.ReadsChangeNoRegister : Prop :=
  ∀ (s : State) (off : Offset) (size : Nat), ∃ (r : Response) (d : Nat),
    busTxn (.read off size) s = .next { s with response := r, draws := d } ∧ s.draws ≤ d ∧
    (s.busy = false → d = s.draws)

/-- R43, R45: while idle a write to window word i below NW replaces exactly bits 32i+31 : 32i of that register: read back it
gives the value, every other word of it is as before, and no other register changes. -/
def Obligations.WindowWriteReplacesOneWord : Prop :=
  ∀ (s : State) (i : Nat) (v : Word), s.WidthOk → i < s.nw → s.busy = false →
    (∃ a, busTxn (.write (BitVec.ofNat 15 (0x1000 + 4 * i)) 4 v) s = .next { s with response := .okay, opa := a } ∧
      a.length = s.nw ∧ readWord a i = v ∧ ∀ j, j ≠ i → readWord a j = readWord s.opa j) ∧
    (∃ b, busTxn (.write (BitVec.ofNat 15 (0x2000 + 4 * i)) 4 v) s = .next { s with response := .okay, opb := b } ∧
      b.length = s.nw ∧ readWord b i = v ∧ ∀ j, j ≠ i → readWord b j = readWord s.opb j) ∧
    (∃ n, busTxn (.write (BitVec.ofNat 15 (0x3000 + 4 * i)) 4 v) s = .next { s with response := .okay, opn := n } ∧
      n.length = s.nw ∧ readWord n i = v ∧ ∀ j, j ≠ i → readWord n j = readWord s.opn j) ∧
    busTxn (.write 0x0014#15 4 v) s = .next { s with response := .okay, iter := v }

/-- R46: while busy a write to CMD, ITER or an operand word below NW changes none of them and sets WBUSY; writes to CTRL and
STATUS are performed as ever (R91, R93). -/
def Obligations.WritesWhileBusyAreDropped : Prop :=
  ∀ (s : State) (v : Word), s.WidthOk → s.busy = true →
    busTxn (.write 0x0010#15 4 v) s = .next { s with response := .okay, wbusy := true } ∧
    busTxn (.write 0x0014#15 4 v) s = .next { s with response := .okay, wbusy := true } ∧
    (∀ i < s.nw,
      busTxn (.write (BitVec.ofNat 15 (0x1000 + 4 * i)) 4 v) s = .next { s with response := .okay, wbusy := true } ∧
      busTxn (.write (BitVec.ofNat 15 (0x2000 + 4 * i)) 4 v) s = .next { s with response := .okay, wbusy := true } ∧
      busTxn (.write (BitVec.ofNat 15 (0x3000 + 4 * i)) 4 v) s = .next { s with response := .okay, wbusy := true }) ∧
    busTxn (.write 0x0008#15 4 v) s = .next (ctrlWrite v { s with response := .okay }) ∧
    busTxn (.write 0x000C#15 4 v) s = .next (statusWrite v { s with response := .okay })

/-- R50: an aligned access to a reserved offset, or to a window word i >= NW, returns OKAY, reads 0 and writes nothing. -/
def Obligations.ReservedOffsetsReadZeroIgnoreWrites : Prop :=
  ∀ (s : State) (off : Offset) (v : Word), off.toNat % 4 = 0 →
    ((0x001C ≤ off.toNat ∧ off.toNat ≤ 0x0FFF) ∨ (0x5000 ≤ off.toNat ∧ off.toNat ≤ 0x7FFF) ∨
      (0x1000 ≤ off.toNat ∧ off.toNat ≤ 0x4FFF ∧ s.nw ≤ off.toNat % 0x1000 / 4)) →
    busTxn (.read off 4) s = .next { s with response := .data 0#32 } ∧
    busTxn (.write off 4 v) s = .next { s with response := .okay }

/-- R45, R18, R27, R28, R37: writes to ID, PARAM, TDONE and the RES window are ignored, without error, busy or not. -/
def Obligations.ReadOnlyRegistersIgnoreWrites : Prop :=
  ∀ (s : State) (v : Word),
    busTxn (.write 0x0000#15 4 v) s = .next { s with response := .okay } ∧
    busTxn (.write 0x0004#15 4 v) s = .next { s with response := .okay } ∧
    busTxn (.write 0x0018#15 4 v) s = .next { s with response := .okay } ∧
    (∀ off : Offset, off.toNat % 4 = 0 → 0x4000 ≤ off.toNat → off.toNat ≤ 0x4FFF →
      busTxn (.write off 4 v) s = .next { s with response := .okay })

/-- R29 to R35, R44: the fields of the STATUS word at their bits; the reserved bits 3:2, 11, 15 and 31:17 read 0; and the codes
of ERR, REASON and JSYM (R64), the reserved ones never among them. -/
def Obligations.StatusWordHasItsFields : Prop :=
  errBits .noError = 0#4 ∧ errBits .illegalCommand = 1#4 ∧ errBits .invalidModulus = 2#4 ∧ errBits .evenModulus = 3#4 ∧
  errBits .jacobiUndefined = 4#4 ∧ errBits .witnessRange = 5#4 ∧ errBits .aborted = 6#4 ∧
  reasonBits .noReason = 0#3 ∧ reasonBits .rejected = 1#3 ∧ reasonBits .trivial = 2#3 ∧
  reasonBits .jacobiUndefined = 3#3 ∧ reasonBits .mismatch = 4#3 ∧ reasonBits .passed = 5#3 ∧
  jsymBits .noSymbol = 0b00#2 ∧ jsymBits .plus = 0b01#2 ∧ jsymBits .minus = 0b11#2 ∧
  ∀ s : State,
    (errBits s.err).toNat ≤ 6 ∧ (reasonBits s.reason).toNat ≤ 5 ∧ jsymBits s.jsym ≠ 0b10#2 ∧
    (statusWord s).getLsbD 0 = s.busy ∧ (statusWord s).getLsbD 1 = s.done ∧
    (statusWord s).extractLsb 3 2 = 0#2 ∧ (statusWord s).extractLsb 7 4 = errBits s.err ∧
    (statusWord s).getLsbD 8 = s.verdict ∧ (statusWord s).extractLsb 10 9 = jsymBits s.jsym ∧
    (statusWord s).getLsbD 11 = false ∧ (statusWord s).extractLsb 14 12 = reasonBits s.reason ∧
    (statusWord s).getLsbD 15 = false ∧ (statusWord s).getLsbD 16 = s.wbusy ∧
    (statusWord s).extractLsb 31 17 = 0#15

/-! ## Control actions, interrupt, reset -/

/-- R91, R92: a CTRL write: SRST first; else IE takes bit 0, and ABORT ends a running command with ERR = ABORTED. -/
def Obligations.CtrlWriteActions : Prop :=
  ∀ (s : State) (v : Word),
    (v.getLsbD 2 = true → busTxn (.write 0x0008#15 4 v) s = .next (resetRegs { s with response := .okay })) ∧
    (v.getLsbD 2 = false → v.getLsbD 1 = true → s.busy = true →
      busTxn (.write 0x0008#15 4 v) s =
        .next (errorComplete .aborted { s with response := .okay, ie := v.getLsbD 0 })) ∧
    (v.getLsbD 2 = false → v.getLsbD 1 = false ∨ s.busy = false →
      busTxn (.write 0x0008#15 4 v) s = .next { s with response := .okay, ie := v.getLsbD 0 })

/-- R93: a STATUS write clears DONE if v[1] = 1 and WBUSY if v[16] = 1 and changes nothing else, busy or not; clearing DONE
deasserts irq. -/
def Obligations.StatusWriteClearsByOnes : Prop :=
  ∀ (s : State) (v : Word),
    busTxn (.write 0x000C#15 4 v) s =
      .next { s with response := .okay,
                     done := if v.getLsbD 1 then false else s.done,
                     wbusy := if v.getLsbD 16 then false else s.wbusy } ∧
    (v.getLsbD 1 = true → ∀ t, busTxn (.write 0x000C#15 4 v) s = .next t → irq t = false)

/-- R38: irq is DONE and IE; after a completion it is IE, it falls at an acknowledgement, a command start, a clearing of IE
and a reset, and a setting of IE raises it while DONE = 1. -/
def Obligations.IrqIsDoneAndEnabled : Prop :=
  (∀ s : State, irq s = true ↔ s.done = true ∧ s.ie = true) ∧
  (∀ (i : Instr) (s t : State), exec i s = .next t → irq t = s.ie) ∧
  (∀ (code : ErrCode) (s : State), irq (errorComplete code s) = s.ie) ∧
  (∀ (i : Instr) (s : State), irq (commandStart i s) = false) ∧
  (∀ (s : State) (v : Word), v.getLsbD 1 = true → irq (statusWrite v s) = false) ∧
  (∀ (s : State) (v : Word), v.getLsbD 0 = false → irq (ctrlWrite v s) = false) ∧
  (∀ (s : State) (v : Word), v.getLsbD 2 = false → v.getLsbD 0 = true → s.done = true → irq (ctrlWrite v s) = true) ∧
  (∀ s : State, irq (resetRegs s) = false)

/-- R92, R99, U8: an abort and a completion in either order. Abort first: ERR = ABORTED, and the engine's turn then does
nothing. Completion first: the command's own result, and the abort then only writes IE. -/
def Obligations.AbortAndCompletionRace : Prop :=
  ∀ (s : State) (i : Instr), s.busy = true → s.activeOp = some i → i ≠ .nop → s.resetPin = false →
    s.host = [wr .ctrl 0x00000002#32] →
    (s.turns = [.host, .engine] → ∃ t, core.run 2 s = .next t ∧
      t.err = .aborted ∧ t.done = true ∧ t.busy = false ∧ wideVal t.res = 0 ∧ t.tdone = 0#32 ∧ t.opn = s.opn) ∧
    (s.turns = [.engine, .host] → ∃ u t, exec i { s with turns := [.host] } = .next u ∧ core.run 2 s = .next t ∧
      t = { u with turns := [], host := [], response := .okay, ie := false })

/-- R110: the reset state: every wide register 0, the fields 0, ITER = 100, no command, irq 0; CTRL and STATUS read 0; the reset
of CTRL.SRST and of the reset input leaves it, but for what is not the engine's. The width is the spec's default 2048 (R5). -/
def Obligations.ResetStateIsTheSpecs : Prop :=
  opA State.reset = 0 ∧ opB State.reset = 0 ∧ opN State.reset = 0 ∧ wideVal State.reset.res = 0 ∧
  State.reset.ie = false ∧ State.reset.busy = false ∧ State.reset.done = false ∧ State.reset.err = .noError ∧
  State.reset.verdict = false ∧ State.reset.jsym = .noSymbol ∧ State.reset.reason = .noReason ∧
  State.reset.wbusy = false ∧ State.reset.iter = 0x00000064#32 ∧ State.reset.tdone = 0#32 ∧
  State.reset.activeOp = none ∧ irq State.reset = false ∧ ctrlWord State.reset = 0#32 ∧ statusWord State.reset = 0#32 ∧
  idWord = 0x53535054#32 ∧ paramWord State.reset = 0x00000040#32 ∧
  (∀ (s : State) (v : Word), s.nw = 64 → v.getLsbD 2 = true → busTxn (.write 0x0008#15 4 v) s = .next { State.reset with
    resetPin := s.resetPin, host := s.host, turns := s.turns, response := .okay, draws := s.draws }) ∧
  (∀ (s : State) (ts : List Turn), s.nw = 64 → s.turns = .assertReset :: .releaseReset :: ts →
    core.run 2 s = .next { State.reset with host := s.host, turns := ts, response := s.response, draws := s.draws })

/-- R112, R25: a CTRL write with bit 2 = 1 puts every piece of state to its reset value in one step, whatever the other bits
and whether or not a command runs, which is then discarded without a completion; it gets OKAY. -/
def Obligations.SoftResetRestoresResetState : Prop :=
  ∀ (s : State) (v : Word), v.getLsbD 2 = true →
    ∃ t, busTxn (.write 0x0008#15 4 v) s = .next t ∧ t.response = .okay ∧
      wideVal t.opa = 0 ∧ wideVal t.opb = 0 ∧ wideVal t.opn = 0 ∧ wideVal t.res = 0 ∧ t.ie = false ∧ t.busy = false ∧
      t.done = false ∧ t.err = .noError ∧ t.verdict = false ∧ t.jsym = .noSymbol ∧ t.reason = .noReason ∧
      t.wbusy = false ∧ t.iter = 100#32 ∧ t.tdone = 0#32 ∧ t.activeOp = none ∧ irq t = false

/-- R111: the reset input. On release every piece of state has its reset value, a running command is discarded without a
completion, and while the input is asserted no host transaction gets a step (the refusal, and that the registers are reset
from the assertion on, are the model's: log 10). -/
def Obligations.HardwareResetRestoresResetState : Prop :=
  (∀ (s : State) (ts : List Turn), s.turns = .assertReset :: ts →
    step s = .next (resetRegs { s with turns := ts, resetPin := true })) ∧
  (∀ (s : State) (ts : List Turn), s.turns = .releaseReset :: ts → s.resetPin = true →
    step s = .next (resetRegs { s with turns := ts, resetPin := false })) ∧
  (∀ s : State, (resetRegs s).done = false ∧ (resetRegs s).busy = false ∧ (resetRegs s).activeOp = none ∧
    (resetRegs s).err = .noError ∧ wideVal (resetRegs s).res = 0 ∧ (resetRegs s).iter = 100#32) ∧
  (∀ (s : State) (ts : List Turn), s.turns = .host :: ts → s.resetPin = true → s.host ≠ [] →
    step s = .refused .transactionInReset)

/-! ## Every step -/

/-- The invariant holds at reset (R110). Its clause `reset_quiet`, the model's choice (log 10), speaks only of an asserted reset
input and says nothing of this state. -/
def Obligations.ResetStateMeetsTheInvariant : Prop := State.reset.Inv

/-- Every step keeps the invariant (R14, R21, R29 to R34, R37, R97): the width, BUSY and ACTIVE_OP, BUSY against DONE, and
what the result fields say together. Its clause `reset_quiet`, that BUSY = 0 and DONE = 0 (so irq is low) while the reset input
is asserted, is the MODEL'S CHOICE (log 10): R111 fixes the registers only at the release. -/
def Obligations.EveryStepKeepsTheInvariant : Prop :=
  ∀ s t : State, s.Inv → step s = .next t → t.Inv

/-- R19, R46: the operand registers and ITER change only by a host write while idle, by SRST or by the reset input: no command
writes them, and they hold throughout a command. No step changes the width (a parameter, R5; log 1). -/
def Obligations.OperandsChangeOnlyByHostOrReset : Prop :=
  ∀ s t : State, step s = .next t →
    t.nw = s.nw ∧ ((t.opa ≠ s.opa ∨ t.opb ≠ s.opb ∨ t.opn ≠ s.opn ∨ t.iter ≠ s.iter) →
    s.resetTurn ∨ ∃ v r, s.hostWrites r v ∧
      ((r = .ctrl ∧ v.getLsbD 2 = true) ∨
       (s.busy = false ∧ (r = .iter ∨ ∃ i, r = .opA i ∨ r = .opB i ∨ r = .opN i))))

/-- R18, R51: RES and TDONE change only in a completion of the running command, in an error completion (an illegal word written
while idle, an abort), or by a reset; a host write never reaches them. -/
def Obligations.ResultsChangeOnlyByCompletionOrReset : Prop :=
  ∀ s t : State, step s = .next t → t.res ≠ s.res ∨ t.tdone ≠ s.tdone →
    (s.busy = true ∧ (s.turns = [] ∨ ∃ ts, s.turns = .engine :: ts)) ∨ s.resetTurn ∨
    (∃ v, s.hostWrites .ctrl v ∧ (v.getLsbD 2 = true ∨ (v.getLsbD 1 = true ∧ s.busy = true))) ∨
    (∃ v, s.hostWrites .cmd v ∧ s.busy = false ∧ IllegalCommandWord v)

/-- R54, R96: a running command ends only in DONE = 1 or in a reset: after any step of a state with BUSY = 1, BUSY or DONE is 1,
unless the step was a reset. -/
def Obligations.RunningCommandEndsInDoneOrReset : Prop :=
  ∀ s t : State, s.Inv → s.busy = true → step s = .next t →
    t.busy = true ∨ t.done = true ∨ s.resetTurn ∨ ∃ v, s.hostWrites .ctrl v ∧ v.getLsbD 2 = true

/-- R35: WBUSY is sticky: it is set only by a dropped write while busy and cleared only by a STATUS write with bit 16 or by a
reset. -/
def Obligations.WbusyIsSticky : Prop :=
  ∀ s t : State, step s = .next t →
    (s.wbusy = false → t.wbusy = true → s.busy = true ∧ ∃ v r, s.hostWrites r v ∧
      (r = .cmd ∨ r = .iter ∨ ∃ i, r = .opA i ∨ r = .opB i ∨ r = .opN i)) ∧
    (s.wbusy = true → t.wbusy = false →
      s.resetTurn ∨ ∃ v, (s.hostWrites .status v ∧ v.getLsbD 16 = true) ∨ (s.hostWrites .ctrl v ∧ v.getLsbD 2 = true))

/-- R120, R87: a running command ends after finitely many steps: as many as turns are scheduled, and one more. That the engine
goes first once the schedule is over is the model's choice (log 3). -/
def Obligations.RunningCommandEndsInBoundedSteps : Prop :=
  ∀ s : State, s.Inv → s.busy = true →
    ∃ n t, n ≤ s.turns.length + 1 ∧ core.run n s = .next t ∧ t.busy = false

/-! ## Host programs and the platform -/

/-- R66, R43, R62: the lines of `ldw OPN, VALUE` on an idle engine leave VALUE in OPN, for every value below 2^W. -/
def Obligations.LdwLoadsTheOperand : Prop :=
  ∀ (s : State) (value : Nat) (rest : List HostOp), s.WidthOk → s.busy = false → s.resetPin = false → s.turns = [] →
    value < 2 ^ (32 * s.nw) → s.host = ldw .opN s.nw value ++ rest →
    ∃ n, core.run s.nw s = .next { s with opn := n, host := rest, response := .okay } ∧ wideVal n = value

/-- The operand words of a big-endian block of at most 4 * NW bytes hold its big-endian integer value: the spec marks the
conversion as its own inference, "[derived: from rule R43 and the source's big-endian integer value]" (R48). -/
def Obligations.BigEndianBlockKeepsItsValue : Prop :=
  ∀ bytes : List (BitVec 8),
    wideVal (operandWords bytes) = bytes.foldl (fun acc b => 256 * acc + b.toNat) 0 ∧
    ∀ nw : Nat, bytes.length ≤ 4 * nw → (operandWords bytes).length ≤ nw

/-- R40: the aperture is aligned to its size, a host address in it selects the offset `address - APERTURE_BASE`, and an address
outside it selects none. -/
def Obligations.ApertureAddressSelectsOffset : Prop :=
  Config.apertureBase % 0x8000 = 0 ∧
  (∀ off : Offset, offsetOfAddress (Config.apertureBase + off.toNat) = some off) ∧
  (∀ addr : Nat, offsetOfAddress addr = none ↔ addr < Config.apertureBase ∨ Config.apertureBase + 0x8000 ≤ addr)
end

