-- ==== Sys2Proof/Laws/Operands.lean ====
section
/-! SUPPORT. The words and the values of wide registers (30_encoding.md R62, 20_memory.md R43), and the map of offsets (R42). -/

namespace Sys2Proof.Machine

@[simp] theorem wideVal_nil : wideVal [] = 0 := rfl

@[simp] theorem wideVal_cons (w : Word) (ws : List Word) : wideVal (w :: ws) = w.toNat + 2 ^ 32 * wideVal ws := rfl

@[simp] theorem length_zeroWords (nw : Nat) : (zeroWords nw).length = nw := List.length_replicate

@[simp] theorem wideVal_zeroWords (nw : Nat) : wideVal (zeroWords nw) = 0 := by
  induction nw with
  | zero => rfl
  | succ k ih => simpa [zeroWords, List.replicate_succ] using ih

@[simp] theorem length_wideOfNat (nw v : Nat) : (wideOfNat nw v).length = nw := by
  induction nw generalizing v with
  | zero => rfl
  | succ k ih => simp [wideOfNat, ih]

/-- A register of n words holds a value below 2^(32 n) (R62). -/
theorem wideVal_lt (r : List Word) : wideVal r < 2 ^ (32 * r.length) := by
  induction r with
  | nil => simp
  | cons w ws ih =>
    have hw := w.isLt
    have hp : 2 ^ (32 * (w :: ws).length) = 2 ^ 32 * 2 ^ (32 * ws.length) := by
      rw [List.length_cons, ← pow_add]; congr 1; omega
    rw [hp, wideVal_cons]
    nlinarith [hw, ih]

/-- Writing a number into nw words keeps it modulo 2^W. -/
theorem wideVal_wideOfNat_mod (nw v : Nat) : wideVal (wideOfNat nw v) = v % 2 ^ (32 * nw) := by
  induction nw generalizing v with
  | zero => simp [wideOfNat, Nat.mod_one]
  | succ k ih =>
    have hp : 2 ^ (32 * (k + 1)) = 2 ^ 32 * 2 ^ (32 * k) := by rw [← pow_add]; congr 1; omega
    rw [wideOfNat, wideVal_cons, ih, BitVec.toNat_ofNat, hp, Nat.mod_mul]

/-- A value below 2^W is written whole (R70). -/
theorem wideVal_wideOfNat {nw v : Nat} (h : v < 2 ^ (32 * nw)) : wideVal (wideOfNat nw v) = v := by
  rw [wideVal_wideOfNat_mod, Nat.mod_eq_of_lt h]

@[simp] theorem wideOfNat_zero (nw : Nat) : wideOfNat nw 0 = zeroWords nw := by
  induction nw with
  | zero => rfl
  | succ k ih => simp [wideOfNat, ih, zeroWords, List.replicate_succ]

/-- Word i of a register is bits 32i+31 : 32i of its value (R43). -/
theorem readWord_eq (r : List Word) (i : Nat) : readWord r i = BitVec.ofNat 32 (wideVal r / 2 ^ (32 * i)) := by
  induction r generalizing i with
  | nil => simp [readWord]
  | cons w ws ih =>
    cases i with
    | zero => apply BitVec.eq_of_toNat_eq; simp [readWord]; omega
    | succ k =>
      have hp : 2 ^ (32 * (k + 1)) = 2 ^ 32 * 2 ^ (32 * k) := by rw [← pow_add]; congr 1; omega
      have hd : (w.toNat + 2 ^ 32 * wideVal ws) / 2 ^ 32 = wideVal ws := by have := w.isLt; omega
      have := ih k
      simp only [readWord] at this ⊢
      rw [List.getD_cons_succ, this, wideVal_cons, hp, ← Nat.div_div_eq_div_mul, hd]

@[simp] theorem length_writeWord (r : List Word) (i : Nat) (v : Word) : (writeWord r i v).length = r.length :=
  List.length_set

theorem readWord_writeWord_same {r : List Word} {i : Nat} (h : i < r.length) (v : Word) :
    readWord (writeWord r i v) i = v := by simp [readWord, writeWord, h]

theorem readWord_writeWord_other (r : List Word) {i j : Nat} (h : j ≠ i) (v : Word) :
    readWord (writeWord r i v) j = readWord r j := by
  simp [readWord, writeWord, List.getElem?_set_ne (Ne.symm h)]

/-- A window word below NW is where its offset says (R43): `base` is the window's and `o` its offset. -/
theorem toNat_windowOffset {base i : Nat} (hb : base ≤ 0x4000) (hi : i < 1024) :
    (BitVec.ofNat 15 (base + 4 * i)).toNat = base + 4 * i := by
  rw [BitVec.toNat_ofNat]; exact Nat.mod_eq_of_lt (by omega)

theorem decodeOffset_opA {nw i : Nat} (h : i < nw) (hi : i < 1024) :
    decodeOffset nw (BitVec.ofNat 15 (0x1000 + 4 * i)) = .opA i := by
  simp only [decodeOffset, toNat_windowOffset (by omega : 0x1000 ≤ 0x4000) hi]
  rw [if_neg (by omega), if_pos (by omega), show (0x1000 + 4 * i - 0x1000) / 4 = i by omega, windowWord, if_pos h]

theorem decodeOffset_opB {nw i : Nat} (h : i < nw) (hi : i < 1024) :
    decodeOffset nw (BitVec.ofNat 15 (0x2000 + 4 * i)) = .opB i := by
  simp only [decodeOffset, toNat_windowOffset (by omega : 0x2000 ≤ 0x4000) hi]
  rw [if_neg (by omega), if_neg (by omega), if_pos (by omega), show (0x2000 + 4 * i - 0x2000) / 4 = i by omega,
    windowWord, if_pos h]

theorem decodeOffset_opN {nw i : Nat} (h : i < nw) (hi : i < 1024) :
    decodeOffset nw (BitVec.ofNat 15 (0x3000 + 4 * i)) = .opN i := by
  simp only [decodeOffset, toNat_windowOffset (by omega : 0x3000 ≤ 0x4000) hi]
  rw [if_neg (by omega), if_neg (by omega), if_neg (by omega), if_pos (by omega),
    show (0x3000 + 4 * i - 0x3000) / 4 = i by omega, windowWord, if_pos h]

theorem decodeOffset_res {nw i : Nat} (h : i < nw) (hi : i < 1024) :
    decodeOffset nw (BitVec.ofNat 15 (0x4000 + 4 * i)) = .res i := by
  simp only [decodeOffset, toNat_windowOffset (by omega : 0x4000 ≤ 0x4000) hi]
  rw [if_neg (by omega), if_neg (by omega), if_neg (by omega), if_neg (by omega), if_pos (by omega),
    show (0x4000 + 4 * i - 0x4000) / 4 = i by omega, windowWord, if_pos h]

@[simp] theorem decodeOffset_id (nw : Nat) : decodeOffset nw 0x0000#15 = .id := rfl
@[simp] theorem decodeOffset_param (nw : Nat) : decodeOffset nw 0x0004#15 = .param := rfl
@[simp] theorem decodeOffset_ctrl (nw : Nat) : decodeOffset nw 0x0008#15 = .ctrl := rfl
@[simp] theorem decodeOffset_status (nw : Nat) : decodeOffset nw 0x000C#15 = .status := rfl
@[simp] theorem decodeOffset_cmd (nw : Nat) : decodeOffset nw 0x0010#15 = .cmd := rfl
@[simp] theorem decodeOffset_iter (nw : Nat) : decodeOffset nw 0x0014#15 = .iter := rfl
@[simp] theorem decodeOffset_tdone (nw : Nat) : decodeOffset nw 0x0018#15 = .tdone := rfl

end Sys2Proof.Machine
end

