-- ==== Sys2Proof/Laws/State.lean ====
section
/-! SUPPORT. What each shared update of the state does to each field, true by rfl: no later proof unfolds an update. -/

namespace Sys2Proof.Machine

/-! ### resetRegs: the reset of every register (R110, R112) -/

@[simp] theorem resetRegs_opa (s : State) : (resetRegs s).opa = zeroWords s.nw := rfl
@[simp] theorem resetRegs_opb (s : State) : (resetRegs s).opb = zeroWords s.nw := rfl
@[simp] theorem resetRegs_opn (s : State) : (resetRegs s).opn = zeroWords s.nw := rfl
@[simp] theorem resetRegs_res (s : State) : (resetRegs s).res = zeroWords s.nw := rfl
@[simp] theorem resetRegs_ie (s : State) : (resetRegs s).ie = false := rfl
@[simp] theorem resetRegs_busy (s : State) : (resetRegs s).busy = false := rfl
@[simp] theorem resetRegs_done (s : State) : (resetRegs s).done = false := rfl
@[simp] theorem resetRegs_err (s : State) : (resetRegs s).err = .noError := rfl
@[simp] theorem resetRegs_verdict (s : State) : (resetRegs s).verdict = false := rfl
@[simp] theorem resetRegs_jsym (s : State) : (resetRegs s).jsym = .noSymbol := rfl
@[simp] theorem resetRegs_reason (s : State) : (resetRegs s).reason = .noReason := rfl
@[simp] theorem resetRegs_wbusy (s : State) : (resetRegs s).wbusy = false := rfl
@[simp] theorem resetRegs_iter (s : State) : (resetRegs s).iter = iterReset := rfl
@[simp] theorem resetRegs_tdone (s : State) : (resetRegs s).tdone = 0#32 := rfl
@[simp] theorem resetRegs_activeOp (s : State) : (resetRegs s).activeOp = none := rfl
@[simp] theorem resetRegs_nw (s : State) : (resetRegs s).nw = s.nw := rfl
@[simp] theorem resetRegs_resetPin (s : State) : (resetRegs s).resetPin = s.resetPin := rfl
@[simp] theorem resetRegs_host (s : State) : (resetRegs s).host = s.host := rfl
@[simp] theorem resetRegs_turns (s : State) : (resetRegs s).turns = s.turns := rfl
@[simp] theorem resetRegs_response (s : State) : (resetRegs s).response = s.response := rfl
@[simp] theorem resetRegs_draws (s : State) : (resetRegs s).draws = s.draws := rfl

/-! ### commandStart: the start of a command (R88) -/

@[simp] theorem commandStart_opa (i : Instr) (s : State) : (commandStart i s).opa = s.opa := rfl
@[simp] theorem commandStart_opb (i : Instr) (s : State) : (commandStart i s).opb = s.opb := rfl
@[simp] theorem commandStart_opn (i : Instr) (s : State) : (commandStart i s).opn = s.opn := rfl
@[simp] theorem commandStart_res (i : Instr) (s : State) : (commandStart i s).res = s.res := rfl
@[simp] theorem commandStart_ie (i : Instr) (s : State) : (commandStart i s).ie = s.ie := rfl
@[simp] theorem commandStart_busy (i : Instr) (s : State) : (commandStart i s).busy = true := rfl
@[simp] theorem commandStart_done (i : Instr) (s : State) : (commandStart i s).done = false := rfl
@[simp] theorem commandStart_err (i : Instr) (s : State) : (commandStart i s).err = .noError := rfl
@[simp] theorem commandStart_verdict (i : Instr) (s : State) : (commandStart i s).verdict = false := rfl
@[simp] theorem commandStart_jsym (i : Instr) (s : State) : (commandStart i s).jsym = .noSymbol := rfl
@[simp] theorem commandStart_reason (i : Instr) (s : State) : (commandStart i s).reason = .noReason := rfl
@[simp] theorem commandStart_wbusy (i : Instr) (s : State) : (commandStart i s).wbusy = s.wbusy := rfl
@[simp] theorem commandStart_iter (i : Instr) (s : State) : (commandStart i s).iter = s.iter := rfl
@[simp] theorem commandStart_tdone (i : Instr) (s : State) : (commandStart i s).tdone = s.tdone := rfl
@[simp] theorem commandStart_activeOp (i : Instr) (s : State) : (commandStart i s).activeOp = some i := rfl
@[simp] theorem commandStart_nw (i : Instr) (s : State) : (commandStart i s).nw = s.nw := rfl
@[simp] theorem commandStart_resetPin (i : Instr) (s : State) : (commandStart i s).resetPin = s.resetPin := rfl
@[simp] theorem commandStart_host (i : Instr) (s : State) : (commandStart i s).host = s.host := rfl
@[simp] theorem commandStart_turns (i : Instr) (s : State) : (commandStart i s).turns = s.turns := rfl
@[simp] theorem commandStart_response (i : Instr) (s : State) : (commandStart i s).response = s.response := rfl
@[simp] theorem commandStart_draws (i : Instr) (s : State) : (commandStart i s).draws = s.draws := rfl

/-! ### complete: the successful completion (R96) -/

@[simp] theorem complete_opa (r : Nat) (v : Bool) (js : Jsym) (rs : Reason) (t : Nat) (s : State) : (complete r v js rs t s).opa = s.opa := rfl
@[simp] theorem complete_opb (r : Nat) (v : Bool) (js : Jsym) (rs : Reason) (t : Nat) (s : State) : (complete r v js rs t s).opb = s.opb := rfl
@[simp] theorem complete_opn (r : Nat) (v : Bool) (js : Jsym) (rs : Reason) (t : Nat) (s : State) : (complete r v js rs t s).opn = s.opn := rfl
@[simp] theorem complete_res (r : Nat) (v : Bool) (js : Jsym) (rs : Reason) (t : Nat) (s : State) : (complete r v js rs t s).res = wideOfNat s.nw r := rfl
@[simp] theorem complete_ie (r : Nat) (v : Bool) (js : Jsym) (rs : Reason) (t : Nat) (s : State) : (complete r v js rs t s).ie = s.ie := rfl
@[simp] theorem complete_busy (r : Nat) (v : Bool) (js : Jsym) (rs : Reason) (t : Nat) (s : State) : (complete r v js rs t s).busy = false := rfl
@[simp] theorem complete_done (r : Nat) (v : Bool) (js : Jsym) (rs : Reason) (t : Nat) (s : State) : (complete r v js rs t s).done = true := rfl
@[simp] theorem complete_err (r : Nat) (v : Bool) (js : Jsym) (rs : Reason) (t : Nat) (s : State) : (complete r v js rs t s).err = .noError := rfl
@[simp] theorem complete_verdict (r : Nat) (v : Bool) (js : Jsym) (rs : Reason) (t : Nat) (s : State) : (complete r v js rs t s).verdict = v := rfl
@[simp] theorem complete_jsym (r : Nat) (v : Bool) (js : Jsym) (rs : Reason) (t : Nat) (s : State) : (complete r v js rs t s).jsym = js := rfl
@[simp] theorem complete_reason (r : Nat) (v : Bool) (js : Jsym) (rs : Reason) (t : Nat) (s : State) : (complete r v js rs t s).reason = rs := rfl
@[simp] theorem complete_wbusy (r : Nat) (v : Bool) (js : Jsym) (rs : Reason) (t : Nat) (s : State) : (complete r v js rs t s).wbusy = s.wbusy := rfl
@[simp] theorem complete_iter (r : Nat) (v : Bool) (js : Jsym) (rs : Reason) (t : Nat) (s : State) : (complete r v js rs t s).iter = s.iter := rfl
@[simp] theorem complete_tdone (r : Nat) (v : Bool) (js : Jsym) (rs : Reason) (t : Nat) (s : State) : (complete r v js rs t s).tdone = BitVec.ofNat 32 t := rfl
@[simp] theorem complete_activeOp (r : Nat) (v : Bool) (js : Jsym) (rs : Reason) (t : Nat) (s : State) : (complete r v js rs t s).activeOp = none := rfl
@[simp] theorem complete_nw (r : Nat) (v : Bool) (js : Jsym) (rs : Reason) (t : Nat) (s : State) : (complete r v js rs t s).nw = s.nw := rfl
@[simp] theorem complete_resetPin (r : Nat) (v : Bool) (js : Jsym) (rs : Reason) (t : Nat) (s : State) : (complete r v js rs t s).resetPin = s.resetPin := rfl
@[simp] theorem complete_host (r : Nat) (v : Bool) (js : Jsym) (rs : Reason) (t : Nat) (s : State) : (complete r v js rs t s).host = s.host := rfl
@[simp] theorem complete_turns (r : Nat) (v : Bool) (js : Jsym) (rs : Reason) (t : Nat) (s : State) : (complete r v js rs t s).turns = s.turns := rfl
@[simp] theorem complete_response (r : Nat) (v : Bool) (js : Jsym) (rs : Reason) (t : Nat) (s : State) : (complete r v js rs t s).response = s.response := rfl
@[simp] theorem complete_draws (r : Nat) (v : Bool) (js : Jsym) (rs : Reason) (t : Nat) (s : State) : (complete r v js rs t s).draws = s.draws := rfl

/-! ### errorComplete: the error completion (R97) -/

@[simp] theorem errorComplete_opa (code : ErrCode) (s : State) : (errorComplete code s).opa = s.opa := rfl
@[simp] theorem errorComplete_opb (code : ErrCode) (s : State) : (errorComplete code s).opb = s.opb := rfl
@[simp] theorem errorComplete_opn (code : ErrCode) (s : State) : (errorComplete code s).opn = s.opn := rfl
@[simp] theorem errorComplete_res (code : ErrCode) (s : State) : (errorComplete code s).res = zeroWords s.nw := rfl
@[simp] theorem errorComplete_ie (code : ErrCode) (s : State) : (errorComplete code s).ie = s.ie := rfl
@[simp] theorem errorComplete_busy (code : ErrCode) (s : State) : (errorComplete code s).busy = false := rfl
@[simp] theorem errorComplete_done (code : ErrCode) (s : State) : (errorComplete code s).done = true := rfl
@[simp] theorem errorComplete_err (code : ErrCode) (s : State) : (errorComplete code s).err = code := rfl
@[simp] theorem errorComplete_verdict (code : ErrCode) (s : State) : (errorComplete code s).verdict = false := rfl
@[simp] theorem errorComplete_jsym (code : ErrCode) (s : State) : (errorComplete code s).jsym = .noSymbol := rfl
@[simp] theorem errorComplete_reason (code : ErrCode) (s : State) : (errorComplete code s).reason = .noReason := rfl
@[simp] theorem errorComplete_wbusy (code : ErrCode) (s : State) : (errorComplete code s).wbusy = s.wbusy := rfl
@[simp] theorem errorComplete_iter (code : ErrCode) (s : State) : (errorComplete code s).iter = s.iter := rfl
@[simp] theorem errorComplete_tdone (code : ErrCode) (s : State) : (errorComplete code s).tdone = 0#32 := rfl
@[simp] theorem errorComplete_activeOp (code : ErrCode) (s : State) : (errorComplete code s).activeOp = none := rfl
@[simp] theorem errorComplete_nw (code : ErrCode) (s : State) : (errorComplete code s).nw = s.nw := rfl
@[simp] theorem errorComplete_resetPin (code : ErrCode) (s : State) : (errorComplete code s).resetPin = s.resetPin := rfl
@[simp] theorem errorComplete_host (code : ErrCode) (s : State) : (errorComplete code s).host = s.host := rfl
@[simp] theorem errorComplete_turns (code : ErrCode) (s : State) : (errorComplete code s).turns = s.turns := rfl
@[simp] theorem errorComplete_response (code : ErrCode) (s : State) : (errorComplete code s).response = s.response := rfl
@[simp] theorem errorComplete_draws (code : ErrCode) (s : State) : (errorComplete code s).draws = s.draws := rfl

/-! ### dropWrite: a dropped write (R46) -/

@[simp] theorem dropWrite_opa (s : State) : (dropWrite s).opa = s.opa := rfl
@[simp] theorem dropWrite_opb (s : State) : (dropWrite s).opb = s.opb := rfl
@[simp] theorem dropWrite_opn (s : State) : (dropWrite s).opn = s.opn := rfl
@[simp] theorem dropWrite_res (s : State) : (dropWrite s).res = s.res := rfl
@[simp] theorem dropWrite_ie (s : State) : (dropWrite s).ie = s.ie := rfl
@[simp] theorem dropWrite_busy (s : State) : (dropWrite s).busy = s.busy := rfl
@[simp] theorem dropWrite_done (s : State) : (dropWrite s).done = s.done := rfl
@[simp] theorem dropWrite_err (s : State) : (dropWrite s).err = s.err := rfl
@[simp] theorem dropWrite_verdict (s : State) : (dropWrite s).verdict = s.verdict := rfl
@[simp] theorem dropWrite_jsym (s : State) : (dropWrite s).jsym = s.jsym := rfl
@[simp] theorem dropWrite_reason (s : State) : (dropWrite s).reason = s.reason := rfl
@[simp] theorem dropWrite_wbusy (s : State) : (dropWrite s).wbusy = true := rfl
@[simp] theorem dropWrite_iter (s : State) : (dropWrite s).iter = s.iter := rfl
@[simp] theorem dropWrite_tdone (s : State) : (dropWrite s).tdone = s.tdone := rfl
@[simp] theorem dropWrite_activeOp (s : State) : (dropWrite s).activeOp = s.activeOp := rfl
@[simp] theorem dropWrite_nw (s : State) : (dropWrite s).nw = s.nw := rfl
@[simp] theorem dropWrite_resetPin (s : State) : (dropWrite s).resetPin = s.resetPin := rfl
@[simp] theorem dropWrite_host (s : State) : (dropWrite s).host = s.host := rfl
@[simp] theorem dropWrite_turns (s : State) : (dropWrite s).turns = s.turns := rfl
@[simp] theorem dropWrite_response (s : State) : (dropWrite s).response = s.response := rfl
@[simp] theorem dropWrite_draws (s : State) : (dropWrite s).draws = s.draws := rfl

/-! ### statusWrite: a STATUS write (R93) -/

@[simp] theorem statusWrite_opa (v : Word) (s : State) : (statusWrite v s).opa = s.opa := rfl
@[simp] theorem statusWrite_opb (v : Word) (s : State) : (statusWrite v s).opb = s.opb := rfl
@[simp] theorem statusWrite_opn (v : Word) (s : State) : (statusWrite v s).opn = s.opn := rfl
@[simp] theorem statusWrite_res (v : Word) (s : State) : (statusWrite v s).res = s.res := rfl
@[simp] theorem statusWrite_ie (v : Word) (s : State) : (statusWrite v s).ie = s.ie := rfl
@[simp] theorem statusWrite_busy (v : Word) (s : State) : (statusWrite v s).busy = s.busy := rfl
@[simp] theorem statusWrite_done (v : Word) (s : State) : (statusWrite v s).done = (s.done && !v.getLsbD 1) := rfl
@[simp] theorem statusWrite_err (v : Word) (s : State) : (statusWrite v s).err = s.err := rfl
@[simp] theorem statusWrite_verdict (v : Word) (s : State) : (statusWrite v s).verdict = s.verdict := rfl
@[simp] theorem statusWrite_jsym (v : Word) (s : State) : (statusWrite v s).jsym = s.jsym := rfl
@[simp] theorem statusWrite_reason (v : Word) (s : State) : (statusWrite v s).reason = s.reason := rfl
@[simp] theorem statusWrite_wbusy (v : Word) (s : State) : (statusWrite v s).wbusy = (s.wbusy && !v.getLsbD 16) := rfl
@[simp] theorem statusWrite_iter (v : Word) (s : State) : (statusWrite v s).iter = s.iter := rfl
@[simp] theorem statusWrite_tdone (v : Word) (s : State) : (statusWrite v s).tdone = s.tdone := rfl
@[simp] theorem statusWrite_activeOp (v : Word) (s : State) : (statusWrite v s).activeOp = s.activeOp := rfl
@[simp] theorem statusWrite_nw (v : Word) (s : State) : (statusWrite v s).nw = s.nw := rfl
@[simp] theorem statusWrite_resetPin (v : Word) (s : State) : (statusWrite v s).resetPin = s.resetPin := rfl
@[simp] theorem statusWrite_host (v : Word) (s : State) : (statusWrite v s).host = s.host := rfl
@[simp] theorem statusWrite_turns (v : Word) (s : State) : (statusWrite v s).turns = s.turns := rfl
@[simp] theorem statusWrite_response (v : Word) (s : State) : (statusWrite v s).response = s.response := rfl
@[simp] theorem statusWrite_draws (v : Word) (s : State) : (statusWrite v s).draws = s.draws := rfl

/-! ### busError: a refused access (R49) -/

@[simp] theorem busError_opa (s : State) : (busError s).opa = s.opa := rfl
@[simp] theorem busError_opb (s : State) : (busError s).opb = s.opb := rfl
@[simp] theorem busError_opn (s : State) : (busError s).opn = s.opn := rfl
@[simp] theorem busError_res (s : State) : (busError s).res = s.res := rfl
@[simp] theorem busError_ie (s : State) : (busError s).ie = s.ie := rfl
@[simp] theorem busError_busy (s : State) : (busError s).busy = s.busy := rfl
@[simp] theorem busError_done (s : State) : (busError s).done = s.done := rfl
@[simp] theorem busError_err (s : State) : (busError s).err = s.err := rfl
@[simp] theorem busError_verdict (s : State) : (busError s).verdict = s.verdict := rfl
@[simp] theorem busError_jsym (s : State) : (busError s).jsym = s.jsym := rfl
@[simp] theorem busError_reason (s : State) : (busError s).reason = s.reason := rfl
@[simp] theorem busError_wbusy (s : State) : (busError s).wbusy = s.wbusy := rfl
@[simp] theorem busError_iter (s : State) : (busError s).iter = s.iter := rfl
@[simp] theorem busError_tdone (s : State) : (busError s).tdone = s.tdone := rfl
@[simp] theorem busError_activeOp (s : State) : (busError s).activeOp = s.activeOp := rfl
@[simp] theorem busError_nw (s : State) : (busError s).nw = s.nw := rfl
@[simp] theorem busError_resetPin (s : State) : (busError s).resetPin = s.resetPin := rfl
@[simp] theorem busError_host (s : State) : (busError s).host = s.host := rfl
@[simp] theorem busError_turns (s : State) : (busError s).turns = s.turns := rfl
@[simp] theorem busError_response (s : State) : (busError s).response = .busErr := rfl
@[simp] theorem busError_draws (s : State) : (busError s).draws = s.draws := rfl

/-! ### assertReset: the assertion of the reset input (R111) -/

@[simp] theorem assertReset_opa (s : State) : (assertReset s).opa = zeroWords s.nw := rfl
@[simp] theorem assertReset_opb (s : State) : (assertReset s).opb = zeroWords s.nw := rfl
@[simp] theorem assertReset_opn (s : State) : (assertReset s).opn = zeroWords s.nw := rfl
@[simp] theorem assertReset_res (s : State) : (assertReset s).res = zeroWords s.nw := rfl
@[simp] theorem assertReset_ie (s : State) : (assertReset s).ie = false := rfl
@[simp] theorem assertReset_busy (s : State) : (assertReset s).busy = false := rfl
@[simp] theorem assertReset_done (s : State) : (assertReset s).done = false := rfl
@[simp] theorem assertReset_err (s : State) : (assertReset s).err = .noError := rfl
@[simp] theorem assertReset_verdict (s : State) : (assertReset s).verdict = false := rfl
@[simp] theorem assertReset_jsym (s : State) : (assertReset s).jsym = .noSymbol := rfl
@[simp] theorem assertReset_reason (s : State) : (assertReset s).reason = .noReason := rfl
@[simp] theorem assertReset_wbusy (s : State) : (assertReset s).wbusy = false := rfl
@[simp] theorem assertReset_iter (s : State) : (assertReset s).iter = iterReset := rfl
@[simp] theorem assertReset_tdone (s : State) : (assertReset s).tdone = 0#32 := rfl
@[simp] theorem assertReset_activeOp (s : State) : (assertReset s).activeOp = none := rfl
@[simp] theorem assertReset_nw (s : State) : (assertReset s).nw = s.nw := rfl
@[simp] theorem assertReset_resetPin (s : State) : (assertReset s).resetPin = true := rfl
@[simp] theorem assertReset_host (s : State) : (assertReset s).host = s.host := rfl
@[simp] theorem assertReset_turns (s : State) : (assertReset s).turns = s.turns := rfl
@[simp] theorem assertReset_response (s : State) : (assertReset s).response = s.response := rfl
@[simp] theorem assertReset_draws (s : State) : (assertReset s).draws = s.draws := rfl

/-! ### memRead: a legal read (R44) -/

@[simp] theorem memRead_opa (off : Offset) (s : State) : (memRead off s).opa = s.opa := rfl
@[simp] theorem memRead_opb (off : Offset) (s : State) : (memRead off s).opb = s.opb := rfl
@[simp] theorem memRead_opn (off : Offset) (s : State) : (memRead off s).opn = s.opn := rfl
@[simp] theorem memRead_res (off : Offset) (s : State) : (memRead off s).res = s.res := rfl
@[simp] theorem memRead_ie (off : Offset) (s : State) : (memRead off s).ie = s.ie := rfl
@[simp] theorem memRead_busy (off : Offset) (s : State) : (memRead off s).busy = s.busy := rfl
@[simp] theorem memRead_done (off : Offset) (s : State) : (memRead off s).done = s.done := rfl
@[simp] theorem memRead_err (off : Offset) (s : State) : (memRead off s).err = s.err := rfl
@[simp] theorem memRead_verdict (off : Offset) (s : State) : (memRead off s).verdict = s.verdict := rfl
@[simp] theorem memRead_jsym (off : Offset) (s : State) : (memRead off s).jsym = s.jsym := rfl
@[simp] theorem memRead_reason (off : Offset) (s : State) : (memRead off s).reason = s.reason := rfl
@[simp] theorem memRead_wbusy (off : Offset) (s : State) : (memRead off s).wbusy = s.wbusy := rfl
@[simp] theorem memRead_iter (off : Offset) (s : State) : (memRead off s).iter = s.iter := rfl
@[simp] theorem memRead_tdone (off : Offset) (s : State) : (memRead off s).tdone = s.tdone := rfl
@[simp] theorem memRead_activeOp (off : Offset) (s : State) : (memRead off s).activeOp = s.activeOp := rfl
@[simp] theorem memRead_nw (off : Offset) (s : State) : (memRead off s).nw = s.nw := rfl
@[simp] theorem memRead_resetPin (off : Offset) (s : State) : (memRead off s).resetPin = s.resetPin := rfl
@[simp] theorem memRead_host (off : Offset) (s : State) : (memRead off s).host = s.host := rfl
@[simp] theorem memRead_turns (off : Offset) (s : State) : (memRead off s).turns = s.turns := rfl

end Sys2Proof.Machine
end

