-- ==== Sys2Proof/Laws/Ops.lean ====
section
/-! SUPPORT. One lemma per shared operation: everything it can do. Proofs cite these instead of unfolding the operation. -/

namespace Sys2Proof.Machine

/-- What the completion step leaves, whatever the outcome (R96, R97). -/
theorem finish_cases (c : CmdResult) (s : State) :
    (∃ r v js rs t, c = .complete r v js rs t ∧ finish c s = complete r v js rs t s) ∨
    (∃ code, c = .raise code ∧ finish c s = errorComplete code s) := by
  cases c with
  | complete r v js rs t => exact .inl ⟨r, v, js, rs, t, rfl, rfl⟩
  | raise code => exact .inr ⟨code, rfl, rfl⟩

/-- Every completion ends the command (R96, R97). -/
theorem finish_ends (c : CmdResult) (s : State) :
    (finish c s).busy = false ∧ (finish c s).done = true ∧ (finish c s).activeOp = none := by
  cases c <;> exact ⟨rfl, rfl, rfl⟩

/-- No completion writes the operands, ITER, IE, WBUSY or anything outside the engine (R19, R96, R97). -/
theorem finish_frame (c : CmdResult) (s : State) : CommandFrame s (finish c s) := by
  cases c <;> exact ⟨rfl, rfl, rfl, rfl, rfl, rfl, rfl, rfl, rfl, rfl, rfl⟩

@[simp] theorem finish_draws (c : CmdResult) (s : State) : (finish c s).draws = s.draws := by cases c <;> rfl

/-- The result and the next draw of a command other than NOP, as a function of the state. -/
def resultOf (i : Instr) (s : State) : CmdResult × Nat :=
  match i with
  | .nop => (.complete 0 false .noSymbol .noReason 0, s.draws)
  | .modexp => (modexpResult (opA s) (opB s) (opN s), s.draws)
  | .modmul => (modmulResult (opA s) (opB s) (opN s), s.draws)
  | .jacobi => (jacobiResult (opA s) (opN s), s.draws)
  | .sstrial => (sstrialResult (opN s) (opA s), s.draws)
  | .sstest => sstestResult Config.witness (opN s) s.iter.toNat s.draws

/-- Every command but NOP is one completion of its result (R96). -/
theorem exec_eq_finish {i : Instr} (h : i ≠ .nop) (s : State) :
    exec i s = .next (finish (resultOf i s).1 { s with draws := (resultOf i s).2 }) := by
  cases i with
  | nop => exact absurd rfl h
  | modexp => rfl
  | modmul => rfl
  | jacobi => rfl
  | sstrial => rfl
  | sstest => rfl

/-- NOP (R89). -/
theorem exec_nop (s : State) : exec .nop s = .next { s with err := .noError, done := true } := rfl

/-- What a CTRL write does (R91). -/
theorem ctrlWrite_cases (v : Word) (s : State) :
    (v.getLsbD 2 = true ∧ ctrlWrite v s = resetRegs s) ∨
    (v.getLsbD 2 = false ∧ v.getLsbD 1 = true ∧ s.busy = true ∧
      ctrlWrite v s = errorComplete .aborted { s with ie := v.getLsbD 0 }) ∨
    (v.getLsbD 2 = false ∧ (v.getLsbD 1 = false ∨ s.busy = false) ∧ ctrlWrite v s = { s with ie := v.getLsbD 0 }) := by
  unfold ctrlWrite abort
  cases v.getLsbD 2 with
  | true => exact .inl ⟨rfl, rfl⟩
  | false =>
    cases v.getLsbD 1 with
    | false => exact .inr (.inr ⟨rfl, .inl rfl, rfl⟩)
    | true =>
      cases hb : s.busy with
      | true => exact .inr (.inl ⟨rfl, rfl, rfl, by simp⟩)
      | false => exact .inr (.inr ⟨rfl, .inr rfl, by simp⟩)

/-- What a CMD write does (R88). -/
theorem cmdWrite_cases (v : Word) (s : State) :
    (s.busy = true ∧ cmdWrite v s = .next (dropWrite s)) ∨
    (s.busy = false ∧ (∃ e, decode v = .error e) ∧ cmdWrite v s = .next (errorComplete .illegalCommand s)) ∨
    (s.busy = false ∧ decode v = .ok .nop ∧ cmdWrite v s = .next { s with err := .noError, done := true }) ∨
    (s.busy = false ∧ ∃ i, i ≠ .nop ∧ decode v = .ok i ∧ cmdWrite v s = .next (commandStart i s)) := by
  cases hb : s.busy with
  | true => exact .inl ⟨rfl, by simp [cmdWrite, hb]⟩
  | false =>
    right
    cases hd : decode v with
    | error e => exact .inl ⟨rfl, ⟨e, rfl⟩, by simp [cmdWrite, hb, hd, illegalWord]⟩
    | ok i =>
      right
      by_cases hn : i = .nop
      · subst hn
        exact .inl ⟨rfl, rfl, by simp [cmdWrite, hb, hd, launch, exec, execNop]⟩
      · exact .inr ⟨rfl, i, hn, rfl, by cases i <;> first | exact absurd rfl hn | simp [cmdWrite, hb, hd, launch]⟩

/-- A read changes the response, and the draw counter when it drew (R44, R47). -/
theorem busRead_eq (off : Offset) (size : Nat) (s : State) :
    ∃ r d, busRead off size s = { s with response := r, draws := d } ∧ s.draws ≤ d ∧ (s.busy = false → d = s.draws) := by
  unfold busRead
  split
  · refine ⟨_, _, rfl, ?_, ?_⟩
    · split <;> omega
    · intro hb; cases decodeOffset s.nw off <;> simp [readsFree, hb]
  · exact ⟨_, _, rfl, Nat.le_refl _, fun _ => rfl⟩

/-- What a write transaction does (R45, R49): the cases of the registers, on the state with the response OKAY. -/
theorem busWrite_eq {off : Offset} (h : off.toNat % 4 = 0) (v : Word) (s : State) :
    busTxn (.write off 4 v) s = writeReg (decodeOffset s.nw off) v { s with response := .okay } := by
  simp [busTxn, legalAccess, h, memWrite]

/-- What a refused write does (R49, R101). -/
theorem busWrite_refused {off : Offset} {size : Nat} (h : off.toNat % 4 ≠ 0 ∨ size ≠ 4) (v : Word) (s : State) :
    busTxn (.write off size v) s = .next (busError s) := by
  have : legalAccess off size = false := by
    rcases h with h | h <;> simp [legalAccess, h]
  simp [busTxn, this]

/-- What one turn is (R13, R54, R111). -/
theorem takeTurn_cases (s : State) :
    (s.turns = [] ∧ s.busy = true ∧ takeTurn s = engineStep s) ∨
    (s.turns = [] ∧ s.busy = false ∧ takeTurn s = hostStep s) ∨
    (∃ ts, s.turns = .host :: ts ∧ takeTurn s = hostStep { s with turns := ts }) ∨
    (∃ ts, s.turns = .engine :: ts ∧ takeTurn s = engineStep { s with turns := ts }) ∨
    (∃ ts, s.turns = .assertReset :: ts ∧ takeTurn s = .next (assertReset { s with turns := ts })) ∨
    (∃ ts, s.turns = .releaseReset :: ts ∧ takeTurn s = .next (releaseReset { s with turns := ts })) := by
  cases ht : s.turns with
  | nil => cases hb : s.busy <;> simp [takeTurn, ht, hb]
  | cons u ts => cases u <;> simp [takeTurn, ht]

/-- What the engine's step does (R96). -/
theorem engineStep_cases (s : State) :
    (s.busy = false ∧ engineStep s = .next s) ∨
    (s.busy = true ∧ s.activeOp = none ∧ engineStep s = .fault .noActiveOp) ∨
    (s.busy = true ∧ ∃ i, s.activeOp = some i ∧ engineStep s = exec i s) := by
  cases hb : s.busy <;> cases ha : s.activeOp <;> simp [engineStep, hb, ha]

/-- What the host's step does (R54, R65, U14). -/
theorem hostStep_cases (s : State) :
    (s.host = [] ∧ hostStep s = .next s) ∨
    (s.host ≠ [] ∧ s.resetPin = true ∧ hostStep s = .refused .transactionInReset) ∨
    (s.resetPin = false ∧ ∃ off size rest, s.host = .bus (.read off size) :: rest ∧
      hostStep s = .next (busRead off size { s with host := rest })) ∨
    (s.resetPin = false ∧ ∃ off size v rest, s.host = .bus (.write off size v) :: rest ∧
      hostStep s = busTxn (.write off size v) { s with host := rest }) ∨
    (s.resetPin = false ∧ ∃ off mask val rest, s.host = .poll off mask val :: rest ∧
      hostStep s = .next (if pollMet (busRead off 4 s).response mask val then { busRead off 4 s with host := rest }
        else busRead off 4 s)) := by
  cases hh : s.host with
  | nil => exact .inl ⟨rfl, by simp [hostStep, hh]⟩
  | cons o rest =>
    right
    cases hp : s.resetPin with
    | true => exact .inl ⟨by simp, rfl, by simp [hostStep, hh, hp]⟩
    | false =>
      right
      cases o with
      | bus t =>
        cases t with
        | read off size => exact .inl ⟨rfl, off, size, rest, rfl, by simp [hostStep, hh, hp, hostOp, busTxn]⟩
        | write off size v => exact .inr (.inl ⟨rfl, off, size, v, rest, rfl, by simp [hostStep, hh, hp, hostOp]⟩)
      | poll off mask val =>
        exact .inr (.inr ⟨rfl, off, mask, val, rest, rfl, by simp [hostStep, hh, hp, hostOp]⟩)

end Sys2Proof.Machine
end

