-- ==== Sys2Proof/Laws/PerInstr.lean ====
section
/-! SUPPORT. The family RoundTrip: of each command, that its word is legal and is read back as the command when its bits are
numbered as spec/opcode_table.json numbers them (30_encoding.md R58, R61). -/

namespace Sys2Proof.Laws

/-- The word of `i` passes the checks of R58 and is the table's row of `i`. -/
def RoundTrip.Statement (i : Instr) : Prop :=
  i.wellFormed = true ∧ legalWord (encode i) = true ∧ decodeTableWord 32 (encode i).toNat = some i

theorem RoundTrip.nop : RoundTrip.Statement .nop := by unfold RoundTrip.Statement; decide
theorem RoundTrip.modexp : RoundTrip.Statement .modexp := by unfold RoundTrip.Statement; decide
theorem RoundTrip.modmul : RoundTrip.Statement .modmul := by unfold RoundTrip.Statement; decide
theorem RoundTrip.jacobi : RoundTrip.Statement .jacobi := by unfold RoundTrip.Statement; decide
theorem RoundTrip.sstrial : RoundTrip.Statement .sstrial := by unfold RoundTrip.Statement; decide
theorem RoundTrip.sstest : RoundTrip.Statement .sstest := by unfold RoundTrip.Statement; decide

end Sys2Proof.Laws
end

