-- ==== Sys2Proof/Laws/Step.lean ====
section
/-! SUPPORT. What one step can do, said once: the cases of a register write, and of a step that answers a next state. -/

namespace Sys2Proof.Machine

/-- A register whose write is dropped while BUSY, but CMD (R46). -/
def BusReg.isOperand (r : BusReg) : Prop := r = .iter ∨ ∃ i, r = .opA i ∨ r = .opB i ∨ r = .opN i

/-- What a write to a register does (R45): the control actions, a CMD write, a dropped or performed operand write, or nothing. -/
theorem writeReg_cases (r : BusReg) (v : Word) (s : State) :
    (r = .ctrl ∧ writeReg r v s = .next (ctrlWrite v s)) ∨
    (r = .status ∧ writeReg r v s = .next (statusWrite v s)) ∨
    (r = .cmd ∧ writeReg r v s = cmdWrite v s) ∨
    (r.isOperand ∧ s.busy = true ∧ writeReg r v s = .next (dropWrite s)) ∨
    (r.isOperand ∧ s.busy = false ∧ ∃ a b n k, writeReg r v s = .next { s with opa := a, opb := b, opn := n, iter := k } ∧
      a.length = s.opa.length ∧ b.length = s.opb.length ∧ n.length = s.opn.length) ∨
    writeReg r v s = .next s := by
  have operand : ∀ (t : State), r.isOperand →
      writeReg r v s = .next (if s.busy then dropWrite s else t) →
      (∃ a b n k, t = { s with opa := a, opb := b, opn := n, iter := k } ∧
        a.length = s.opa.length ∧ b.length = s.opb.length ∧ n.length = s.opn.length) →
      (r.isOperand ∧ s.busy = true ∧ writeReg r v s = .next (dropWrite s)) ∨
      (r.isOperand ∧ s.busy = false ∧ ∃ a b n k, writeReg r v s = .next { s with opa := a, opb := b, opn := n, iter := k } ∧
        a.length = s.opa.length ∧ b.length = s.opb.length ∧ n.length = s.opn.length) := by
    rintro t hr hw ⟨a, b, n, k, ht, hl⟩
    rcases Bool.eq_false_or_eq_true s.busy with hb | hb
    · exact .inl ⟨hr, hb, by rw [hw, if_pos hb]⟩
    · exact .inr ⟨hr, hb, a, b, n, k, by rw [hw, if_neg (by rw [hb]; decide), ht], hl⟩
  cases r with
  | id => exact .inr (.inr (.inr (.inr (.inr rfl))))
  | param => exact .inr (.inr (.inr (.inr (.inr rfl))))
  | ctrl => exact .inl ⟨rfl, rfl⟩
  | status => exact .inr (.inl ⟨rfl, rfl⟩)
  | cmd => exact .inr (.inr (.inl ⟨rfl, rfl⟩))
  | iter =>
    rcases operand { s with iter := v } (.inl rfl) rfl ⟨_, _, _, _, rfl, rfl, rfl, rfl⟩ with h | h
    · exact .inr (.inr (.inr (.inl h)))
    · exact .inr (.inr (.inr (.inr (.inl h))))
  | tdone => exact .inr (.inr (.inr (.inr (.inr rfl))))
  | opA i =>
    rcases operand { s with opa := writeWord s.opa i v } (.inr ⟨i, .inl rfl⟩) rfl
      ⟨_, _, _, _, rfl, List.length_set, rfl, rfl⟩ with h | h
    · exact .inr (.inr (.inr (.inl h)))
    · exact .inr (.inr (.inr (.inr (.inl h))))
  | opB i =>
    rcases operand { s with opb := writeWord s.opb i v } (.inr ⟨i, .inr (.inl rfl)⟩) rfl
      ⟨_, _, _, _, rfl, rfl, List.length_set, rfl⟩ with h | h
    · exact .inr (.inr (.inr (.inl h)))
    · exact .inr (.inr (.inr (.inr (.inl h))))
  | opN i =>
    rcases operand { s with opn := writeWord s.opn i v } (.inr ⟨i, .inr (.inr rfl)⟩) rfl
      ⟨_, _, _, _, rfl, rfl, rfl, List.length_set⟩ with h | h
    · exact .inr (.inr (.inr (.inl h)))
    · exact .inr (.inr (.inr (.inr (.inl h))))
  | res i => exact .inr (.inr (.inr (.inr (.inr rfl))))
  | reserved => exact .inr (.inr (.inr (.inr (.inr rfl))))

/-- The cases of a step from `s` to `t`; `ts` is the schedule left and `h` the host operations left. -/
inductive StepCase (s : State) : State → Prop
  /-- no register of the engine changes: an idle turn, a read, a refused or ignored write -/
  | quiet (ts : List Turn) (h : List HostOp) (r : Response) (d : Nat) (hd : s.draws ≤ d) :
      StepCase s { s with turns := ts, host := h, response := r, draws := d }
  /-- the engine's step (R96) -/
  | engine (i : Instr) (ts : List Turn) (t : State) (ht : s.turns = [] ∨ ∃ us, s.turns = .engine :: us)
      (hb : s.busy = true) (ha : s.activeOp = some i) (he : exec i { s with turns := ts } = .next t) : StepCase s t
  /-- an edge of the reset input (R111) -/
  | reset (ts : List Turn) (b : Bool) (ht : s.resetTurn) : StepCase s { resetRegs s with turns := ts, resetPin := b }
  /-- a CTRL write (R91) -/
  | ctrl (v : Word) (ts : List Turn) (h : List HostOp) (hw : s.hostWrites .ctrl v) :
      StepCase s (ctrlWrite v { s with turns := ts, host := h, response := .okay })
  /-- a STATUS write (R93) -/
  | status (v : Word) (ts : List Turn) (h : List HostOp) (hw : s.hostWrites .status v) :
      StepCase s (statusWrite v { s with turns := ts, host := h, response := .okay })
  /-- a dropped write (R46) -/
  | drop (r : BusReg) (v : Word) (ts : List Turn) (h : List HostOp) (hw : s.hostWrites r v) (hb : s.busy = true)
      (hr : r = .cmd ∨ r.isOperand) : StepCase s (dropWrite { s with turns := ts, host := h, response := .okay })
  /-- an illegal command word (R90) -/
  | illegal (v : Word) (e : IllegalWord) (ts : List Turn) (h : List HostOp) (hw : s.hostWrites .cmd v) (hb : s.busy = false)
      (hd : decode v = .error e) :
      StepCase s (errorComplete .illegalCommand { s with turns := ts, host := h, response := .okay })
  /-- NOP (R89) -/
  | nop (v : Word) (ts : List Turn) (h : List HostOp) (hw : s.hostWrites .cmd v) (hb : s.busy = false)
      (hd : decode v = .ok .nop) :
      StepCase s { s with turns := ts, host := h, response := .okay, err := .noError, done := true }
  /-- a command start (R88) -/
  | start (i : Instr) (v : Word) (ts : List Turn) (h : List HostOp) (hw : s.hostWrites .cmd v) (hb : s.busy = false)
      (hn : i ≠ .nop) (hd : decode v = .ok i) :
      StepCase s (commandStart i { s with turns := ts, host := h, response := .okay })
  /-- an operand or ITER write while idle (R45) -/
  | operand (r : BusReg) (v : Word) (ts : List Turn) (h : List HostOp) (a b n : List Word) (k : Word)
      (hw : s.hostWrites r v) (hb : s.busy = false) (hr : r.isOperand) (ha : a.length = s.opa.length)
      (hb' : b.length = s.opb.length) (hn : n.length = s.opn.length) :
      StepCase s { s with turns := ts, host := h, response := .okay, opa := a, opb := b, opn := n, iter := k }

/-- A host's turn that answers a next state is one of the cases. -/
theorem hostStep_case {s t : State} {ts : List Turn} (hturn : s.hostTurn)
    (h : hostStep { s with turns := ts } = .next t) : StepCase s t := by
  rcases hostStep_cases { s with turns := ts } with
    ⟨-, b⟩ | ⟨-, -, b⟩ | ⟨-, off, size, rest, -, b⟩ | ⟨hp, off, size, v, rest, hh, b⟩ | ⟨-, off, mask, val, rest, -, b⟩
  · rw [b] at h; cases h; exact .quiet _ _ _ _ (Nat.le_refl _)
  · rw [b] at h; cases h
  · rw [b] at h; cases h
    obtain ⟨r, d, e, hd, -⟩ := busRead_eq off size { s with turns := ts, host := rest }
    rw [e]; exact .quiet _ _ _ _ hd
  · rw [b] at h
    by_cases hl : off.toNat % 4 ≠ 0 ∨ size ≠ 4
    · rw [busWrite_refused hl] at h; cases h; exact .quiet _ _ _ _ (Nat.le_refl _)
    · have ha : off.toNat % 4 = 0 := by omega
      have hs : size = 4 := by omega
      subst hs
      rw [busWrite_eq ha] at h
      have hw : s.hostWrites (decodeOffset s.nw off) v := ⟨hturn, hp, off, rest, hh, ha, rfl⟩
      simp only at h
      rcases writeReg_cases (decodeOffset s.nw off) v { s with turns := ts, host := rest, response := .okay } with
        ⟨e, c⟩ | ⟨e, c⟩ | ⟨e, c⟩ | ⟨e, hb, c⟩ | ⟨e, hb, a', b', n', k', c, l1, l2, l3⟩ | c <;> rw [c] at h
      · cases h; exact .ctrl _ _ _ (e ▸ hw)
      · cases h; exact .status _ _ _ (e ▸ hw)
      · rcases cmdWrite_cases v { s with turns := ts, host := rest, response := .okay } with
          ⟨hb, c⟩ | ⟨hb, ⟨e', he⟩, c⟩ | ⟨hb, hd, c⟩ | ⟨hb, i, hn, hd, c⟩ <;> rw [c] at h <;> cases h
        · exact .drop _ _ _ _ hw hb (.inl e)
        · exact .illegal _ _ _ _ (e ▸ hw) hb he
        · exact .nop _ _ _ (e ▸ hw) hb hd
        · exact .start _ _ _ _ (e ▸ hw) hb hn hd
      · cases h; exact .drop _ _ _ _ hw hb (.inr e)
      · cases h; exact .operand _ _ _ _ _ _ _ _ hw hb e l1 l2 l3
      · cases h; exact .quiet _ _ _ _ (Nat.le_refl _)
  · rw [b] at h; cases h
    obtain ⟨r, d, e, hd, -⟩ := busRead_eq off 4 { s with turns := ts }
    rw [e]
    split <;> exact .quiet _ _ _ _ hd

/-- An engine's turn that answers a next state is one of the cases. -/
theorem engineStep_case {s t : State} {ts : List Turn} (ht : s.turns = [] ∨ ∃ us, s.turns = .engine :: us)
    (h : engineStep { s with turns := ts } = .next t) : StepCase s t := by
  rcases engineStep_cases { s with turns := ts } with ⟨-, e⟩ | ⟨-, -, e⟩ | ⟨hb, i, ha, e⟩ <;> rw [e] at h
  · cases h; exact .quiet _ _ _ _ (Nat.le_refl _)
  · cases h
  · exact .engine i ts t ht hb ha h

/-- Every step that answers a next state is one of the cases of `StepCase`. -/
theorem step_case {s t : State} (h : step s = .next t) : StepCase s t := by
  rw [step] at h
  rcases takeTurn_cases s with
    ⟨a, -, c⟩ | ⟨a, hb, c⟩ | ⟨ts, a, c⟩ | ⟨ts, a, c⟩ | ⟨ts, a, c⟩ | ⟨ts, a, c⟩ <;> rw [c] at h
  · exact engineStep_case (ts := s.turns) (.inl a) h
  · exact hostStep_case (ts := s.turns) (.inr ⟨a, hb⟩) h
  · exact hostStep_case (.inl ⟨ts, a⟩) h
  · exact engineStep_case (.inr ⟨ts, a⟩) h
  · cases h; exact .reset ts true ⟨ts, .inl a⟩
  · cases h
    unfold releaseReset
    split
    · exact .reset ts false ⟨ts, .inr a⟩
    · exact .quiet _ _ _ _ (Nat.le_refl _)

end Sys2Proof.Machine
end

