-- ==== Sys2Proof/Tests/Slice0.lean ====
section
/-! SUPPORT. Tests whose expected results stand in spec/95_test_vectors.md or in the rule a comment names, and, per statement
of Certificates/Slice0/Obligations.lean that has hypotheses, concrete values that meet them. -/

namespace Sys2Proof.Tests

open Sys2Proof.Machine

/-- An idle engine of the smallest width, W = 64, with the given operands. -/
def small (a b n : Nat) : State :=
  { State.reset with
    nw := 2, opa := wideOfNat 2 a, opb := wideOfNat 2 b, opn := wideOfNat 2 n, res := zeroWords 2 }

/-- The same engine with command `i` running. -/
def running (i : Instr) (a b n : Nat) : State := { small a b n with busy := true, activeOp := some i }

/-- A state with host operations to issue and a schedule. -/
def withWork (s : State) (h : List HostOp) (ts : List Turn) : State := { s with host := h, turns := ts }

/-- What is seen of the next state, if there is one. -/
def seen {α : Type} (o : StepOutcome) (f : State → α) : Option α :=
  match o with
  | .next t => some (f t)
  | .fault _ => none
  | .refused _ => none

/-- RES and STATUS. -/
def resStatus (s : State) : Nat × Word := (wideVal s.res, statusWord s)

/-- A source whose draws for candidate `p` are those listed. -/
def drawing (l : List Nat) (c : Nat) : Nat := l.getD c 1 - 1

/-! ## Well-formedness: an ill-formed term for each check -/

theorem test_illformed_reserved_bit : reservedBitsClear 0x00000010#32 = false := by decide
theorem test_illformed_opcode : opcodeDefined 0x00000006#32 = false ∧ opcodeDefined 0x0000000F#32 = false := by decide
theorem test_illformed_word : legalWord 0x00000010#32 = false ∧ legalWord 0x00000006#32 = false ∧
    legalWord 0x80000001#32 = false ∧ legalWord 0x00000005#32 = true := by decide
theorem test_illformed_width : legalWidth 1 = false ∧ legalWidth 1025 = false ∧ legalWidth 2 = true ∧
    legalWidth 64 = true ∧ legalWidth 1024 = true := by decide

/-! ## Decoding: RSVD (28 bits) then OP (4 bits), 30_encoding.md R57 and R61 -/

theorem test_decode_nop : decode (0b0000000000000000000000000000#28 ++ 0b0000#4) = .ok .nop := by rfl
theorem test_decode_modexp : decode (0b0000000000000000000000000000#28 ++ 0b0001#4) = .ok .modexp := by rfl
theorem test_decode_modmul : decode (0b0000000000000000000000000000#28 ++ 0b0010#4) = .ok .modmul := by rfl
theorem test_decode_jacobi : decode (0b0000000000000000000000000000#28 ++ 0b0011#4) = .ok .jacobi := by rfl
theorem test_decode_sstrial : decode (0b0000000000000000000000000000#28 ++ 0b0100#4) = .ok .sstrial := by rfl
theorem test_decode_sstest : decode (0b0000000000000000000000000000#28 ++ 0b0101#4) = .ok .sstest := by rfl

/-- R60, and vectors N2 to N4. -/
theorem test_decode_illegal : decode (0b0000000000000000000000000000#28 ++ 0b0111#4) = .error .reservedOpcode ∧
    decode (0b0000000000000000000000000001#28 ++ 0b0000#4) = .error .reservedBits ∧
    decode 0xFFFFFFFF#32 = .error .reservedBits := ⟨rfl, rfl, rfl⟩

/-- The rows of spec/opcode_table.json: 32 bits, values 0 to 5. -/
theorem test_decodeTableWord : [0, 1, 2, 3, 4, 5, 6, 16].map (decodeTableWord 32) =
    [some .nop, some .modexp, some .modmul, some .jacobi, some .sstrial, some .sstest, none, none] := by decide

/-! ## Commands: the vectors of 95_test_vectors.md -/

/-- M1. -/
theorem test_modexp : seen (exec .modexp (small 4 13 497)) resStatus = some (445, 0x00000002#32) := by decide +kernel
/-- M11: two-word operands. -/
theorem test_modexp_two_words : seen (exec .modexp (small 3 (2 ^ 61 - 2) (2 ^ 61 - 1))) resStatus =
    some (1, 0x00000002#32) := by decide +kernel
/-- X5: a product of two full-width operands. -/
theorem test_modmul : seen (exec .modmul (small (2 ^ 64 - 1) (2 ^ 64 - 1) (2 ^ 64 - 59))) resStatus =
    some (3364, 0x00000002#32) := by decide +kernel
/-- X4. -/
theorem test_modmul_invalid : seen (exec .modmul (small 3 4 0)) resStatus = some (0, 0x00000022#32) := by decide +kernel
/-- J10. -/
theorem test_jacobi : seen (exec .jacobi (small 1001 0 9907)) resStatus = some (9906, 0x00000602#32) := by decide +kernel
/-- J17, J20. -/
theorem test_jacobi_errors : seen (exec .jacobi (small 3 0 9)) resStatus = some (0, 0x00000042#32) ∧
    seen (exec .jacobi (small 3 0 8)) resStatus = some (0, 0x00000032#32) := by decide +kernel
/-- T4, T7: a mismatch, and a pass of a composite. -/
theorem test_sstrial : seen (exec .sstrial (small 2 0 9)) resStatus = some (7, 0x00004202#32) ∧
    seen (exec .sstrial (small 14 0 15)) resStatus = some (14, 0x00005702#32) := by decide +kernel
/-- T6, T16, T19: no symbol, a witness out of range, the candidate 2. -/
theorem test_sstrial_corners : seen (exec .sstrial (small 3 0 9)) resStatus = some (0, 0x00003002#32) ∧
    seen (exec .sstrial (small 7 0 7)) resStatus = some (0, 0x00000052#32) ∧
    seen (exec .sstrial (small 5 0 2)) resStatus = some (0, 0x00002102#32) := by decide +kernel
/-- Q8, Q7, Q9, under the draws the vectors name. -/
theorem test_sstest_draws :
    sstestResult (drawing [8, 2]) 9 3 0 = (.complete 2 false .noSymbol .mismatch 1, 2) ∧
    sstestResult (drawing [1, 8, 8]) 9 3 0 = (.complete 8 true .noSymbol .passed 3, 3) ∧
    sstestResult (drawing [3]) 9 2 0 = (.complete 3 false .noSymbol .jacobiUndefined 0, 1) := by decide +kernel
/-- Q5, Q11: no witness is drawn. -/
theorem test_sstest_without_draws :
    seen (exec .sstest { small 0 0 97 with iter := 0#32 }) resStatus = some (0, 0x00005102#32) ∧
    seen (exec .sstest (small 0 0 4)) resStatus = some (0, 0x00001002#32) := by decide +kernel
/-- N1. -/
theorem test_nop : seen (busTxn (.write 0x0010#15 4 0#32) State.reset) resStatus = some (0, 0x00000002#32) := by
  decide +kernel
/-- N13: NOP after T4. -/
theorem test_nop_leaves_results : seen (exec .sstrial (small 2 0 9)) (fun t => seen (exec .nop t) resStatus) =
    some (some (7, 0x00004202#32)) := by decide +kernel

/-! ## Bus and reset vectors -/

/-- N2. -/
theorem test_illegal_word : seen (busTxn (.write 0x0010#15 4 7#32) (small 0 0 0)) resStatus =
    some (0, 0x00000012#32) := by decide +kernel
/-- N10, N11. -/
theorem test_dropped_write : seen (busTxn (.write 0x3000#15 4 5#32) (running .sstest 0 0 97))
    (fun t => (opN t, t.wbusy, t.busy)) = some (97, true, true) := by decide +kernel
/-- B1 to B3, B7: ID, PARAM, ITER and a reserved offset from reset. -/
theorem test_reads : [0x0000#15, 0x0004#15, 0x0014#15, 0x0020#15].map (fun o => (busRead o 4 State.reset).response) =
    [.data 0x53535054#32, .data 0x00000040#32, .data 0x00000064#32, .data 0#32] := by decide +kernel
/-- B5, B6. -/
theorem test_buserr : (busRead 0x0002#15 4 (small 0 0 0)).response = .busErr ∧
    (busRead 0x000C#15 2 (small 0 0 0)).response = .busErr := by decide +kernel
/-- B8: word 64 of OPA at W = 2048. -/
theorem test_window_above_width : seen (busTxn (.write 0x1100#15 4 5#32) State.reset)
    (fun t => (opA t, (busRead 0x1100#15 4 t).response)) = some (0, .data 0#32) := by decide +kernel
/-- B11. -/
theorem test_window_words : (busRead 0x3000#15 4 (small 0 0 (2 ^ 61 - 1))).response = .data 0xFFFFFFFF#32 ∧
    (busRead 0x3004#15 4 (small 0 0 (2 ^ 61 - 1))).response = .data 0x1FFFFFFF#32 := by decide +kernel
/-- R2, its last line: SRST wins over IE in one write. -/
theorem test_soft_reset : busTxn (.write 0x0008#15 4 5#32) { State.reset with
    iter := 7#32, opa := writeWord State.reset.opa 0 9#32 } = .next { State.reset with response := .okay } := by rfl
/-- N8, the abort first. -/
theorem test_abort : seen (busTxn (.write 0x0008#15 4 3#32) { running .sstest 0 0 97 with ie := true })
    (fun t => (statusWord t, irq t)) = some (0x00000062#32, true) := by decide +kernel
/-- Program 1, line 5, before the completion and after it: the poll reads 1 and stays, then reads 2 and ends. -/
theorem test_poll :
    seen (step (withWork (running .modexp 4 13 497) waitDone [.host])) (fun t => (t.response, t.host.length)) =
      some (.data 0x00000001#32, 1) ∧
    seen (step (withWork { small 4 13 497 with done := true } waitDone [.host])) (fun t => (t.response, t.host.length)) =
      some (.data 0x00000002#32, 0) := by decide +kernel
/-- R48: the block FF 00 00 00 01 is word 0 = 1, word 1 = 0xFF. -/
theorem test_big_endian : operandWords [0xFF#8, 0#8, 0#8, 0#8, 1#8] = [0x00000001#32, 0x000000FF#32] := by decide

/-! ## The step -/

/-- MODMUL placed on reset runs at the next step: 0 * 0 mod 0 is INVALID_MODULUS. -/
theorem test_step_runs_placed_modmul : seen (step (State.reset.withFetchWord 32 2)) resStatus =
    some (0, 0x00000022#32) := by decide +kernel
/-- NOP placed on reset runs at the next step. -/
theorem test_step_runs_placed_nop : seen (step (State.reset.withFetchWord 32 0)) resStatus =
    some (0, 0x00000002#32) := by decide +kernel
/-- From reset with nothing placed the machine idles (log 5). -/
theorem test_step_idles_from_reset : step State.reset = .next State.reset := by rfl
/-- SSTEST placed on reset: the candidate 0 is rejected. -/
theorem test_step_runs_placed_sstest : seen (step (State.reset.withFetchWord 32 5)) resStatus =
    some (0, 0x00001002#32) := by decide +kernel

/-! ## Witnesses: the hypotheses of the statements can be met -/

theorem small_widthOk (a b n : Nat) : (small a b n).WidthOk :=
  ⟨rfl, length_wideOfNat 2 a, length_wideOfNat 2 b, length_wideOfNat 2 n, length_zeroWords 2⟩

theorem running_widthOk (i : Instr) (a b n : Nat) : (running i a b n).WidthOk :=
  ⟨rfl, length_wideOfNat 2 a, length_wideOfNat 2 b, length_wideOfNat 2 n, length_zeroWords 2⟩

/-- The widest engine, W = 32768. -/
def widest : State :=
  { State.reset with
    nw := 1024, opa := zeroWords 1024, opb := zeroWords 1024, opn := zeroWords 1024, res := zeroWords 1024 }

theorem widest_widthOk : widest.WidthOk :=
  ⟨rfl, length_zeroWords 1024, length_zeroWords 1024, length_zeroWords 1024, length_zeroWords 1024⟩

theorem running_inv (i : Instr) (h : i ≠ .nop) (a b n : Nat) : (running i a b n).Inv where
  widthOk := running_widthOk i a b n
  busy_iff_active := rfl
  active_ne_nop := by intro e; cases e; exact h rfl
  not_busy_and_done := by rintro ⟨-, e⟩; cases e
  busy_clears _ := ⟨rfl, rfl, rfl, rfl⟩
  error_zeroes e := absurd rfl e
  verdict_iff_reason := by
    show false = true ↔ Reason.noReason = .trivial ∨ Reason.noReason = .passed
    decide
  precheck_zeroes e := by cases e <;> rename_i e <;> cases e
  symbol_reason e := absurd rfl e
  tdone_reason e := by cases e
  reset_quiet e := by cases e

/-- An idle engine in reset, with a transaction pending. -/
theorem held_inv (h : List HostOp) : (withWork { State.reset with resetPin := true } h []).Inv where
  widthOk := ⟨rfl, length_zeroWords 64, length_zeroWords 64, length_zeroWords 64, length_zeroWords 64⟩
  busy_iff_active := rfl
  active_ne_nop := by intro e; cases e
  not_busy_and_done := by rintro ⟨e, -⟩; cases e
  busy_clears e := by cases e
  error_zeroes e := absurd rfl e
  verdict_iff_reason := by
    show false = true ↔ Reason.noReason = .trivial ∨ Reason.noReason = .passed
    decide
  precheck_zeroes e := by cases e <;> rename_i e <;> cases e
  symbol_reason e := absurd rfl e
  tdone_reason _ e := absurd rfl e
  reset_quiet _ := ⟨rfl, rfl⟩

theorem witness_DecodeAgreesWithEncode : decode 5#32 = .ok .sstest ∧ decode (encode .nop) = .ok .nop := ⟨rfl, rfl⟩

theorem witness_StepRunsThePlacedCommand : decode 0#32 = .ok .nop ∧ decode 1#32 = .ok .modexp ∧
    decode 2#32 = .ok .modmul ∧ decode 3#32 = .ok .jacobi ∧ decode 4#32 = .ok .sstrial ∧ decode 5#32 = .ok .sstest :=
  ⟨rfl, rfl, rfl, rfl, rfl, rfl⟩

theorem witness_EngineStepCompletesActiveCommand :
    (withWork (small 0 0 0) [] [.engine]).turns = .engine :: [] ∧ (withWork (small 0 0 0) [] [.engine]).busy = false ∧
    (withWork (running .jacobi 2 0 7) [] [.engine]).busy = true ∧
    (withWork (running .jacobi 2 0 7) [] [.engine]).activeOp = some .jacobi := ⟨rfl, rfl, rfl, rfl⟩

theorem witness_HostTurnPerformsNextOperation :
    (withWork (small 0 0 0) [rd .id] [.host]).turns = .host :: [] ∧
    (withWork (small 0 0 0) [rd .id] []).turns = [] ∧ (withWork (small 0 0 0) [rd .id] []).busy = false ∧
    (withWork (small 0 0 0) [rd .id] []).resetPin = false ∧
    (withWork (small 0 0 0) [rd .id] []).host = .bus (.read 0x0000#15 4) :: [] := ⟨rfl, rfl, rfl, rfl, rfl⟩

/-- The poll of `wait`, before and after the completion. -/
theorem witness_HostTurnPerformsNextOperation_poll (s : State) : decodeOffset s.nw (regOffset .status) = .status ∧
    readsFree .status s = false ∧ (regOffset .status).toNat % 4 = 0 ∧
    readValue .status (running .modexp 4 13 497) &&& 2#32 ≠ 2#32 ∧
    readValue .status { small 0 0 0 with done := true } &&& 2#32 = 2#32 :=
  ⟨rfl, rfl, by decide, by decide, by decide⟩

theorem witness_StepStopsOnlyOnTransactionInReset : (running .modmul 7 8 5).Inv ∧
    (withWork { State.reset with resetPin := true } [rd .id] []).Inv ∧
    step (withWork { State.reset with resetPin := true } [rd .id] []) = .refused .transactionInReset :=
  ⟨running_inv .modmul (by decide) 7 8 5, held_inv [rd .id], rfl⟩

theorem witness_CmdWriteStartsCommand : (running .sstest 0 0 9).busy = true ∧ (small 0 0 0).busy = false ∧
    IllegalCommandWord 0x00000010#32 ∧ Instr.sstest ≠ .nop := ⟨rfl, rfl, .inl (by decide), by decide⟩

theorem witness_NopCompletesAtOnce : (running .sstest 0 0 9).busy = true ∧ (small 0 0 0).busy = false ∧
    { small 0 0 0 with ie := true }.ie = true ∧ ∃ t, exec .nop State.reset = .next t := ⟨rfl, rfl, rfl, _, rfl⟩

/-- The boundary values of both kinds of illegal word; WBUSY both ways. -/
theorem witness_IllegalWordCompletesWithError : IllegalCommandWord 6#32 ∧ IllegalCommandWord 15#32 ∧
    IllegalCommandWord 16#32 ∧ IllegalCommandWord 0xFFFFFFFF#32 ∧ ¬IllegalCommandWord 5#32 ∧
    (small 0 0 0).busy = false ∧ (running .jacobi 2 0 7).busy = true ∧
    (small 0 0 0).wbusy = false ∧ { small 0 0 0 with wbusy := true }.wbusy = true :=
  ⟨.inr (by decide), .inr (by decide), .inl (by decide), .inl (by decide),
    by rintro (h | h) <;> exact absurd h (by decide), rfl, rfl, rfl, rfl⟩

theorem witness_ModExpLoopIsThePower : 1 ≤ 1 ∧ 1 ≤ 497 := by decide

theorem witness_ModexpWritesThePower : opN (small 9 5 1) ≠ 0 ∧ opN (small 4 13 497) ≠ 0 ∧ opN (small 9 5 0) = 0 := by
  decide +kernel

theorem witness_ModmulWritesTheProduct : opN (small 12 12 1) ≠ 0 ∧ opN (small 3 4 0) = 0 := by decide +kernel

theorem witness_ResHoldsTheExactResult : (small (2 ^ 64 - 1) (2 ^ 64 - 1) (2 ^ 64 - 1)).WidthOk ∧
    opN (small (2 ^ 64 - 1) (2 ^ 64 - 1) (2 ^ 64 - 1)) = 2 ^ 64 - 1 ∧ opN (small 0 0 1) ≠ 0 :=
  ⟨small_widthOk _ _ _, by decide +kernel, by decide +kernel⟩

theorem witness_JacobiLoopIsTheJacobiSymbol : 1 % 2 = 1 ∧ 15 % 2 = 1 := by decide

theorem witness_JacobiIsZeroExactlyWhenNotCoprime : 15 % 2 = 1 ∧ gcdF 2 15 = 1 ∧ gcdF 3 15 ≠ 1 ∧ gcdF 0 1 = 1 := by
  decide +kernel

theorem witness_JacobiKnownValues : 1 % 2 = 1 ∧ 3 % 2 = 1 := by decide

/-- The five clauses: J19, J20, J18, J6 and J5. -/
theorem witness_JacobiWritesTheSymbol : opN (small 5 0 0) = 0 ∧
    (opN (small 3 0 8) ≠ 0 ∧ opN (small 3 0 8) % 2 = 0) ∧
    (opN (small 0 0 3) % 2 = 1 ∧ Nat.gcd (opA (small 0 0 3)) (opN (small 0 0 3)) ≠ 1) ∧
    (opA (small 2 0 7) = 2 ∧ opN (small 2 0 7) = 7 ∧ jacobiSym (2 : Nat) 7 = 1) ∧
    (opA (small 2 0 3) = 2 ∧ opN (small 2 0 3) = 3 ∧ jacobiSym (2 : Nat) 3 = -1) :=
  ⟨by decide +kernel, by decide +kernel, by decide +kernel,
    ⟨by decide +kernel, by decide +kernel, by norm_num⟩, by decide +kernel, by decide +kernel, by norm_num⟩

/-- The candidates on both sides of each boundary of R81. -/
theorem witness_PrecheckClassifiesCandidates : precheck 0 = .rejected ∧ precheck 1 = .rejected ∧
    precheck 2 = .trivial ∧ precheck 3 = .run ∧ precheck 4 = .rejected ∧ precheck 5 = .run := by decide

/-- T6, T5 and T4, and the ends of the witness range. -/
theorem witness_TrialComparesSymbolWithPower : 9 % 2 = 1 ∧ 3 ≤ 9 ∧ 1 ≤ 3 ∧ 8 ≤ 9 - 1 ∧ Nat.gcd 3 9 ≠ 1 ∧
    (Nat.gcd 8 9 = 1 ∧ mapJ (jacobiF 8 9) 9 = 8 ^ ((9 - 1) / 2) % 9) ∧
    (Nat.gcd 2 9 = 1 ∧ mapJ (jacobiF 2 9) 9 ≠ 2 ^ ((9 - 1) / 2) % 9) ∧
    (Nat.gcd 1 3 = 1 ∧ mapJ (jacobiF 1 3) 3 = 1 ^ ((3 - 1) / 2) % 3) := by decide +kernel

/-- The five clauses: T18, T22; T20; T15, T16; T6; T5, T4. -/
theorem witness_SstrialReportsItsTrial : opN (small 9 0 1) < 2 ∧ opN (small 1 0 100) % 2 = 0 ∧
    opN (small 1 0 100) ≠ 2 ∧ opN (small 0 0 2) = 2 ∧
    (opN (small 0 0 7) % 2 = 1 ∧ 3 ≤ opN (small 0 0 7) ∧ opA (small 0 0 7) = 0) ∧
    opA (small 7 0 7) > opN (small 7 0 7) - 1 ∧
    (1 ≤ opA (small 3 0 9) ∧ opA (small 3 0 9) ≤ opN (small 3 0 9) - 1 ∧
      Nat.gcd (opA (small 3 0 9)) (opN (small 3 0 9)) ≠ 1) ∧
    (opN (small 8 0 9) % 2 = 1 ∧ 3 ≤ opN (small 8 0 9) ∧ opA (small 8 0 9) ≤ opN (small 8 0 9) - 1 ∧
      Nat.gcd (opA (small 8 0 9)) (opN (small 8 0 9)) = 1) := by decide +kernel

theorem witness_DrawnWitnessIsAnyValueInRange : 2 ≤ 2 ∧ ∀ _c : Nat, 1 ≤ 8 ∧ 8 ≤ 9 - 1 := ⟨by decide, fun _ => by decide⟩

theorem witness_SstestWithoutTrials : opN (small 0 0 1) < 2 ∧ (opN (small 0 0 4) % 2 = 0 ∧ opN (small 0 0 4) ≠ 2) ∧
    opN (small 0 0 2) = 2 ∧ (opN (small 0 0 3) % 2 = 1 ∧ 3 ≤ opN (small 0 0 3) ∧
    { small 0 0 3 with iter := 0#32 }.iter = 0#32) := by decide +kernel

/-- All trials pass (Q7, and k = 0); the first trial fails (Q9); a later one fails (Q8). -/
theorem witness_SstestStopsAtFirstFailingTrial :
    (∀ j < 3, trialPasses 9 (drawWitness (drawing [1, 8, 8]) 9 (0 + j)) = true) ∧
    (∀ j < 0, trialPasses 9 (drawWitness (drawing [3]) 9 (0 + j)) = true) ∧
    trialPasses 9 (drawWitness (drawing [3]) 9 (0 + 0)) = false ∧
    (∀ j < 1, trialPasses 9 (drawWitness (drawing [8, 2]) 9 (0 + j)) = true) ∧
    trialPasses 9 (drawWitness (drawing [8, 2]) 9 (0 + 1)) = false := by decide +kernel

theorem witness_SstestVerdictIsThatOfItsWitnesses : opN (small 0 0 3) % 2 = 1 ∧ 3 ≤ opN (small 0 0 3) := by
  decide +kernel

theorem witness_PrimesPassEveryTrial : Nat.Prime 3 ∧ 3 ≠ 2 ∧ 1 ≤ 2 ∧ 2 ≤ 3 - 1 ∧ opN (small 0 0 3) = 3 ∧
    opN (small 0 0 2) = 2 := ⟨Nat.prime_three, by decide, by decide, by decide, by decide +kernel, by decide +kernel⟩

theorem witness_EveryCommandCompletes : Instr.modexp ≠ .nop ∧ Instr.modmul ≠ .nop ∧ Instr.jacobi ≠ .nop ∧
    Instr.sstrial ≠ .nop ∧ Instr.sstest ≠ .nop := by decide

theorem witness_CommandsLeaveTheRest : ∀ i : Instr, ∃ t, exec i (small 2 3 9) = .next t := by
  intro i; cases i <;> exact ⟨_, rfl⟩

/-- Each error occurs: M9, J20, J17, T15. -/
theorem witness_ErrorsHaveExactlyTheirCauses :
    seen (exec .modexp (small 9 5 0)) State.err = some .invalidModulus ∧
    seen (exec .jacobi (small 3 0 8)) State.err = some .evenModulus ∧
    seen (exec .jacobi (small 3 0 9)) State.err = some .jacobiUndefined ∧
    seen (exec .sstrial (small 0 0 7)) State.err = some .witnessRange := by decide +kernel

theorem witness_UnlistedRegistersAreIgnored : ∀ i : Instr, ∃ t, exec i (small 2 3 7) = .next t := by
  intro i; cases i <;> exact ⟨_, rfl⟩

/-- Misaligned, of the wrong size, and legal at both ends of the aperture. -/
theorem witness_OnlyIllegalAccessGetsBusErr : (0x0002#15).toNat % 4 ≠ 0 ∧ (0x7FFF#15).toNat % 4 ≠ 0 ∧ 2 ≠ 4 ∧
    (0x0000#15).toNat % 4 = 0 ∧ (0x7FFC#15).toNat % 4 = 0 := by decide

theorem witness_CtrlReservedBitsAreIgnored :
    (0xFFFFFFF9#32).extractLsb 2 0 = (0x00000001#32).extractLsb 2 0 := by decide

theorem witness_ControlRegisterReads : (small 0 0 0).busy = false ∧ (running .modexp 4 13 497).busy = true := ⟨rfl, rfl⟩

/-- The first and the last window word, at the smallest and the largest width. -/
theorem witness_WindowReads : (small 1 2 3).WidthOk ∧ 0 < (small 1 2 3).nw ∧ 1 < (small 1 2 3).nw ∧
    widest.WidthOk ∧ 1023 < widest.nw ∧ (small 1 2 3).busy = false ∧ (running .modexp 1 2 3).WidthOk ∧
    (running .modexp 1 2 3).busy = true :=
  ⟨small_widthOk 1 2 3, by decide, by decide, widest_widthOk, by decide, rfl, running_widthOk .modexp 1 2 3, rfl⟩

theorem witness_ReadsChangeNoRegister : (small 1 2 3).busy = false := rfl

theorem witness_WindowWriteReplacesOneWord : (small 1 2 3).WidthOk ∧ 0 < (small 1 2 3).nw ∧ 1 < (small 1 2 3).nw ∧
    (small 1 2 3).busy = false ∧ widest.WidthOk ∧ 1023 < widest.nw ∧ widest.busy = false :=
  ⟨small_widthOk 1 2 3, by decide, by decide, rfl, widest_widthOk, by decide, rfl⟩

theorem witness_WritesWhileBusyAreDropped : (running .modexp 1 2 3).WidthOk ∧ (running .modexp 1 2 3).busy = true ∧
    0 < (running .modexp 1 2 3).nw ∧ 1 < (running .modexp 1 2 3).nw :=
  ⟨running_widthOk .modexp 1 2 3, rfl, by decide, by decide⟩

/-- The ends of the reserved ranges; the first window word at or above NW and the last, in OPA and RES. -/
theorem witness_ReservedOffsetsReadZeroIgnoreWrites :
    (0x001C#15).toNat % 4 = 0 ∧ 0x001C ≤ (0x001C#15).toNat ∧ (0x0FFC#15).toNat ≤ 0x0FFF ∧
    0x5000 ≤ (0x5000#15).toNat ∧ (0x7FFC#15).toNat ≤ 0x7FFF ∧ (0x7FFC#15).toNat % 4 = 0 ∧
    (small 0 0 0).nw ≤ (0x1008#15).toNat % 0x1000 / 4 ∧ ¬(small 0 0 0).nw ≤ (0x1004#15).toNat % 0x1000 / 4 ∧
    (small 0 0 0).nw ≤ (0x4FFC#15).toNat % 0x1000 / 4 ∧ (0x4FFC#15).toNat ≤ 0x4FFF := by decide

theorem witness_ReadOnlyRegistersIgnoreWrites : (0x4000#15).toNat % 4 = 0 ∧ 0x4000 ≤ (0x4000#15).toNat ∧
    (0x4FFC#15).toNat % 4 = 0 ∧ (0x4FFC#15).toNat ≤ 0x4FFF := by decide

/-- SRST with every other bit; an abort of a running command; an abort while idle; a write of IE while busy. -/
theorem witness_CtrlWriteActions : (0x00000007#32).getLsbD 2 = true ∧
    ((0x00000003#32).getLsbD 2 = false ∧ (0x00000003#32).getLsbD 1 = true ∧ (running .sstest 0 0 9).busy = true) ∧
    (small 0 0 9).busy = false ∧ ((0x00000001#32).getLsbD 2 = false ∧ (0x00000001#32).getLsbD 1 = false) := by decide

theorem witness_StatusWriteClearsByOnes : (0x00000002#32).getLsbD 1 = true ∧
    ∃ t, busTxn (.write 0x000C#15 4 0x00000002#32) { small 0 0 0 with done := true } = .next t := ⟨by decide, _, rfl⟩

theorem witness_IrqIsDoneAndEnabled : (∃ t, exec .modmul { small 7 8 5 with ie := true } = .next t) ∧
    (0x00000002#32).getLsbD 1 = true ∧ (0x00000000#32).getLsbD 0 = false ∧
    ((0x00000001#32).getLsbD 2 = false ∧ (0x00000001#32).getLsbD 0 = true ∧ { small 0 0 0 with done := true }.done = true) :=
  ⟨⟨_, rfl⟩, by decide, by decide, by decide, by decide, rfl⟩

/-- Both schedules of the race. -/
theorem witness_AbortAndCompletionRace : ∀ ts : List Turn, ts = [.host, .engine] ∨ ts = [.engine, .host] →
    ∃ s : State, s.busy = true ∧ s.activeOp = some .sstest ∧ Instr.sstest ≠ .nop ∧ s.resetPin = false ∧
      s.host = [wr .ctrl 0x00000002#32] ∧ s.turns = ts := by
  intro ts _
  exact ⟨withWork (running .sstest 0 0 97) [wr .ctrl 0x00000002#32] ts, rfl, rfl, by decide, rfl, rfl, rfl⟩

theorem witness_ResetStateIsTheSpecs : (running .sstest 0 0 9).busy = true ∧
    { running .sstest 0 0 9 with nw := 64 }.nw = 64 ∧ (0x00000005#32).getLsbD 2 = true ∧
    (withWork State.reset [] [.assertReset, .releaseReset]).nw = 64 ∧
    (withWork State.reset [] [.assertReset, .releaseReset]).turns = .assertReset :: .releaseReset :: [] :=
  ⟨rfl, rfl, by decide, rfl, rfl⟩

theorem witness_SoftResetRestoresResetState : (0x00000004#32).getLsbD 2 = true ∧ (0xFFFFFFFF#32).getLsbD 2 = true := by
  decide

theorem witness_HardwareResetRestoresResetState :
    (withWork State.reset [] [.assertReset]).turns = .assertReset :: [] ∧
    (withWork { State.reset with resetPin := true } [] [.releaseReset]).turns = .releaseReset :: [] ∧
    (withWork { State.reset with resetPin := true } [rd .id] [.host]).resetPin = true ∧
    (withWork { State.reset with resetPin := true } [rd .id] [.host]).turns = .host :: [] ∧
    (withWork { State.reset with resetPin := true } [rd .id] [.host]).host ≠ [] :=
  ⟨rfl, rfl, rfl, rfl, by intro h; cases h⟩

theorem witness_EveryStepKeepsTheInvariant : (running .sstrial 2 0 9).Inv ∧ ∃ t, step (running .sstrial 2 0 9) = .next t :=
  ⟨running_inv .sstrial (by decide) 2 0 9, _, rfl⟩

/-- A host write of a word of OPA while idle, and a reset, change OPA. -/
theorem witness_OperandsChangeOnlyByHostOrReset :
    (∃ t, step (withWork (small 1 2 3) [wr (.opA 0) 9#32] []) = .next t ∧ t.opa ≠ (small 1 2 3).opa) ∧
    ∃ t, step (withWork (small 1 2 3) [] [.assertReset]) = .next t ∧ t.opa ≠ (small 1 2 3).opa :=
  ⟨⟨_, rfl, by decide +kernel⟩, _, rfl, by decide +kernel⟩

/-- A completion, an abort, an illegal word and a reset change RES. -/
theorem witness_ResultsChangeOnlyByCompletionOrReset :
    (∃ t, step (running .modmul 7 8 5) = .next t ∧ t.res ≠ (small 7 8 5).res) ∧
    (∃ t, step (withWork { running .modmul 7 8 5 with res := [1#32, 0#32] } [wr .ctrl 2#32] [.host]) = .next t ∧
      t.res ≠ [1#32, 0#32]) ∧
    (∃ t, step (withWork { small 7 8 5 with res := [1#32, 0#32] } [wr .cmd 6#32] []) = .next t ∧ t.res ≠ [1#32, 0#32]) ∧
    ∃ t, step (withWork { small 7 8 5 with res := [1#32, 0#32] } [] [.assertReset]) = .next t ∧ t.res ≠ [1#32, 0#32] :=
  ⟨⟨_, rfl, by decide +kernel⟩, ⟨_, rfl, by decide +kernel⟩, ⟨_, rfl, by decide +kernel⟩, _, rfl, by decide +kernel⟩

theorem witness_RunningCommandEndsInDoneOrReset : (running .modexp 4 13 497).Inv ∧
    (running .modexp 4 13 497).busy = true ∧ ∃ t, step (running .modexp 4 13 497) = .next t :=
  ⟨running_inv .modexp (by decide) 4 13 497, rfl, _, rfl⟩

/-- A dropped write sets WBUSY; a STATUS write clears it. -/
theorem witness_WbusyIsSticky :
    (∃ t, step (withWork (running .modexp 4 13 497) [wr .iter 5#32] [.host]) = .next t ∧ t.wbusy = true) ∧
    ∃ t, step (withWork { small 0 0 0 with wbusy := true } [wr .status 0x00010000#32] []) = .next t ∧ t.wbusy = false :=
  ⟨⟨_, rfl, by decide +kernel⟩, _, rfl, by decide +kernel⟩

theorem witness_RunningCommandEndsInBoundedSteps : (running .sstest 0 0 97).Inv ∧ (running .sstest 0 0 97).busy = true :=
  ⟨running_inv .sstest (by decide) 0 0 97, rfl⟩

theorem witness_LdwLoadsTheOperand :
    (withWork (small 0 0 0) (ldw .opN 2 (2 ^ 64 - 1) ++ [rd .id]) []).WidthOk ∧ (small 0 0 0).busy = false ∧
    (small 0 0 0).resetPin = false ∧ 2 ^ 64 - 1 < 2 ^ (32 * (small 0 0 0).nw) :=
  ⟨⟨rfl, length_wideOfNat 2 0, length_wideOfNat 2 0, length_wideOfNat 2 0, length_zeroWords 2⟩, rfl, rfl, by decide⟩

theorem witness_BigEndianBlockKeepsItsValue : [0xFF#8, 0#8, 0#8, 0#8, 1#8].length ≤ 4 * 2 := by decide

end Sys2Proof.Tests
end

section
/-! PROOF. Rules of single bus transactions and of a command's step that the statements about registers rest on. -/

namespace Sys2Proof.Machine

/-! ### Transactions on a named register (R44, R45) -/

/-- R44: a legal read that draws nothing returns the register's value and changes only the response. -/
theorem busTxn_read_of_not_free {off : Offset} {r : BusReg} {s : State} (ha : off.toNat % 4 = 0)
    (hr : decodeOffset s.nw off = r) (hf : readsFree r s = false) :
    busTxn (.read off 4) s = .next { s with response := .data (readValue r s) } := by
  simp [busTxn, busRead, legalAccess, ha, memRead, hr, hf]

/-- R45, R91: a write to CTRL. -/
theorem busTxn_write_ctrl (v : Word) (s : State) :
    busTxn (.write 0x0008#15 4 v) s = .next (ctrlWrite v { s with response := .okay }) :=
  busWrite_eq (by decide) v s

/-! ### CTRL writes (R91) -/

/-- Words that agree in bits 2:0 agree in each of these bits. -/
theorem getLsbD_eq_of_extractLsb_eq {v w : Word} (h : v.extractLsb 2 0 = w.extractLsb 2 0) {k : Nat} (hk : k ≤ 2) :
    v.getLsbD k = w.getLsbD k := by
  have hbit : (v.extractLsb 2 0).getLsbD k = (w.extractLsb 2 0).getLsbD k := by rw [h]
  simpa [BitVec.getLsbD_extractLsb, hk] using hbit

/-- R26: a CTRL write looks at bits 2:0 of the word alone. -/
theorem ctrlWrite_eq_of_low_bits_eq {v w : Word} (h : v.extractLsb 2 0 = w.extractLsb 2 0) (s : State) :
    ctrlWrite v s = ctrlWrite w s := by
  have h0 : v.getLsbD 0 = w.getLsbD 0 := getLsbD_eq_of_extractLsb_eq h (by decide)
  have h1 : v.getLsbD 1 = w.getLsbD 1 := getLsbD_eq_of_extractLsb_eq h (by decide)
  have h2 : v.getLsbD 2 = w.getLsbD 2 := getLsbD_eq_of_extractLsb_eq h (by decide)
  simp only [ctrlWrite, h0, h1, h2]

@[simp] theorem ctrlWrite_nw (v : Word) (s : State) : (ctrlWrite v s).nw = s.nw := by
  rcases ctrlWrite_cases v s with ⟨-, e⟩ | ⟨-, -, -, e⟩ | ⟨-, -, e⟩ <;> rw [e] <;> rfl

/-- R91: after a CTRL write IE is bit 0 of the word, but for a soft reset, which clears it. -/
theorem ctrlWrite_ie (v : Word) (s : State) : (ctrlWrite v s).ie = (v.getLsbD 0 && !v.getLsbD 2) := by
  rcases ctrlWrite_cases v s with ⟨h2, e⟩ | ⟨h2, -, -, e⟩ | ⟨h2, -, e⟩
  · rw [e, h2, resetRegs_ie, Bool.not_true, Bool.and_false]
  · rw [e, h2, errorComplete_ie, Bool.not_false, Bool.and_true]
  · rw [e, h2, Bool.not_false, Bool.and_true]

/-- Without SRST a CTRL write leaves DONE set: an abort sets it, and nothing else of CTRL touches it (R91, R92). -/
theorem ctrlWrite_done_of_done {v : Word} {s : State} (h2 : v.getLsbD 2 = false) (hd : s.done = true) :
    (ctrlWrite v s).done = true := by
  rcases ctrlWrite_cases v s with ⟨h2', -⟩ | ⟨-, -, -, e⟩ | ⟨-, -, e⟩
  · rw [h2] at h2'; cases h2'
  · rw [e, errorComplete_done]
  · rw [e]; exact hd

/-! ### Every command: its frame and DONE (R89, R96) -/

/-- No command writes the operands, ITER, IE, WBUSY, the width or anything outside the engine (R19). -/
theorem exec_frame {i : Instr} {s t : State} (h : exec i s = .next t) : CommandFrame s t := by
  by_cases hn : i = .nop
  · subst hn; rw [exec_nop] at h; cases h
    exact ⟨rfl, rfl, rfl, rfl, rfl, rfl, rfl, rfl, rfl, rfl, rfl⟩
  · rw [exec_eq_finish hn] at h; cases h
    exact { finish_frame (resultOf i s).1 { s with draws := (resultOf i s).2 } with }

/-- Every command ends with DONE = 1 (R89, R96, R97). -/
theorem exec_done {i : Instr} {s t : State} (h : exec i s = .next t) : t.done = true := by
  by_cases hn : i = .nop
  · subst hn; rw [exec_nop] at h; cases h; rfl
  · rw [exec_eq_finish hn] at h; cases h
    exact (finish_ends _ _).2.1

/-! ### The interrupt output (R38) -/

theorem irq_eq_true_iff (s : State) : irq s = true ↔ s.done = true ∧ s.ie = true := Bool.and_eq_true_iff

theorem irq_of_done {s : State} (h : s.done = true) : irq s = s.ie := by simp [irq, h]

theorem irq_of_not_done {s : State} (h : s.done = false) : irq s = false := by simp [irq, h]

theorem irq_of_not_ie {s : State} (h : s.ie = false) : irq s = false := by simp [irq, h]

/-! ### What a step does to the operand registers (R19) -/

/-- The width, OPA, OPB, OPN and ITER are the same in both states. -/
structure SameOperands (s t : State) : Prop where
  nw : t.nw = s.nw
  opa : t.opa = s.opa
  opb : t.opb = s.opb
  opn : t.opn = s.opn
  iter : t.iter = s.iter

theorem exec_sameOperands {i : Instr} {s t : State} (h : exec i s = .next t) : SameOperands s t where
  __ := exec_frame h

/-- A CTRL write without SRST leaves the operands. -/
theorem ctrlWrite_sameOperands {v : Word} (s : State) (h2 : v.getLsbD 2 = false) : SameOperands s (ctrlWrite v s) := by
  rcases ctrlWrite_cases v s with ⟨h2', -⟩ | ⟨-, -, -, e⟩ | ⟨-, -, e⟩
  · rw [h2] at h2'; cases h2'
  · rw [e]; exact ⟨rfl, rfl, rfl, rfl, rfl⟩
  · rw [e]; exact ⟨rfl, rfl, rfl, rfl, rfl⟩

/-- The steps that R19 lets change an operand register: an edge of the reset input, SRST, or a host write while idle. -/
def State.operandsWritable (s : State) : Prop :=
  s.resetTurn ∨ ∃ v r, s.hostWrites r v ∧ ((r = .ctrl ∧ v.getLsbD 2 = true) ∨ (s.busy = false ∧ r.isOperand))

/-- Every step keeps the width, and the operands too unless it is one of the steps R19 names. -/
theorem step_operands {s t : State} (h : step s = .next t) :
    t.nw = s.nw ∧ (SameOperands s t ∨ s.operandsWritable) := by
  cases step_case h with
  | quiet | status | drop | illegal | nop | start => exact ⟨rfl, .inl ⟨rfl, rfl, rfl, rfl, rfl⟩⟩
  | engine i ts _ _ _ _ he =>
    have hsame : SameOperands s t := { exec_sameOperands he with }
    exact ⟨hsame.nw, .inl hsame⟩
  | reset _ _ ht => exact ⟨rfl, .inr (.inl ht)⟩
  | ctrl v ts rest hw =>
    refine ⟨ctrlWrite_nw v _, ?_⟩
    cases h2 : v.getLsbD 2 with
    | true => exact .inr (.inr ⟨v, .ctrl, hw, .inl ⟨rfl, h2⟩⟩)
    | false =>
      exact .inl { ctrlWrite_sameOperands { s with turns := ts, host := rest, response := .okay } h2 with }
  | operand r v _ _ _ _ _ _ hw hb hr => exact ⟨rfl, .inr (.inr ⟨v, r, hw, .inr ⟨hb, hr⟩⟩)⟩

end Sys2Proof.Machine
end

section
/-! PROOF. The statements about ID, PARAM and CTRL, the interrupt output, and the operand registers (10_state.md). -/

namespace Sys2Proof.Machine

/-- Settles O52: by the cases of a step, each of which keeps the operands or is a step that R19 names. -/
theorem operandsChangeOnlyByHostOrReset : Obligations.OperandsChangeOnlyByHostOrReset := by
  intro s t h
  obtain ⟨hnw, hops⟩ := step_operands h
  refine ⟨hnw, fun hchanged => ?_⟩
  rcases hops with hsame | hwritable
  · rcases hchanged with hne | hne | hne | hne
    · exact absurd hsame.opa hne
    · exact absurd hsame.opb hne
    · exact absurd hsame.opn hne
    · exact absurd hsame.iter hne
  · exact hwritable

/-- Settles O34: a read of CTRL draws nothing, and a write looks at bits 2:0 alone. -/
theorem ctrlReservedBitsAreIgnored : Obligations.CtrlReservedBitsAreIgnored := by
  refine ⟨fun s => busTxn_read_of_not_free (r := .ctrl) (by decide) rfl rfl, fun s v w h => ?_⟩
  rw [busTxn_write_ctrl, busTxn_write_ctrl, ctrlWrite_eq_of_low_bits_eq h]

/-- Settles O45: each operation's effect on DONE and IE gives the level of irq. -/
theorem irqIsDoneAndEnabled : Obligations.IrqIsDoneAndEnabled := by
  refine ⟨irq_eq_true_iff, ?completion, ?errorCompletion, ?start, ?acknowledge, ?disable, ?enable, ?reset⟩
  case completion => intro i s t h; rw [irq_of_done (exec_done h), (exec_frame h).ie]
  case errorCompletion => intro code s; rw [irq_of_done (errorComplete_done code s), errorComplete_ie]
  case start => intro i s; exact irq_of_not_done (commandStart_done i s)
  case acknowledge => intro s v h1; exact irq_of_not_done (by rw [statusWrite_done, h1, Bool.not_true, Bool.and_false])
  case disable => intro s v h0; exact irq_of_not_ie (by rw [ctrlWrite_ie, h0, Bool.false_and])
  case enable =>
    intro s v h2 h0 hd
    rw [irq_of_done (ctrlWrite_done_of_done h2 hd), ctrlWrite_ie, h0, h2]; rfl
  case reset => intro s; exact irq_of_not_done (resetRegs_done s)

/-- Settles O33: reads of ID and PARAM draw nothing, and their writes reach no register. -/
theorem idAndParamAreConstants : Obligations.IdAndParamAreConstants := by
  refine ⟨fun s v => ⟨?readId, ?writeId, ?readParam, ?writeParam⟩, by decide⟩
  case readId => exact busTxn_read_of_not_free (r := .id) (by decide) rfl rfl
  case writeId => exact busWrite_eq (by decide) v s
  case readParam => exact busTxn_read_of_not_free (r := .param) (by decide) rfl rfl
  case writeParam => exact busWrite_eq (by decide) v s

end Sys2Proof.Machine
end

section
/-! PROOF. The response of every bus access, and the reserved offsets (20_memory.md R49, R50, R101). -/

namespace Sys2Proof.Machine

/-! ### Refused and legal accesses (R49, R101) -/

/-- R49: an access is refused exactly when it is misaligned or not of 4 bytes. -/
theorem legalAccess_eq_false_iff (off : Offset) (size : Nat) :
    legalAccess off size = false ↔ off.toNat % 4 ≠ 0 ∨ size ≠ 4 := by
  rw [legalAccess, Bool.and_eq_false_iff, decide_eq_false_iff_not, decide_eq_false_iff_not]

/-- What a refused read does (R49, R101). -/
theorem busTxn_read_refused {off : Offset} {size : Nat} (h : off.toNat % 4 ≠ 0 ∨ size ≠ 4) (s : State) :
    busTxn (.read off size) s = .next (busError s) := by
  rw [busTxn, busRead, (legalAccess_eq_false_iff off size).mpr h, if_neg Bool.false_ne_true]

/-- R44: a legal read, whatever register it reaches. -/
theorem busTxn_read_aligned {off : Offset} (h : off.toNat % 4 = 0) (s : State) :
    busTxn (.read off 4) s = .next (memRead off s) := by
  simp [busTxn, busRead, legalAccess, h]

/-! ### No register write changes the response -/

@[simp] theorem ctrlWrite_response (v : Word) (s : State) : (ctrlWrite v s).response = s.response := by
  rcases ctrlWrite_cases v s with ⟨-, e⟩ | ⟨-, -, -, e⟩ | ⟨-, -, e⟩ <;> rw [e] <;> rfl

/-- A CMD write is always performed, dropped or answered with an error completion: it stops no run (R88, R90). -/
theorem cmdWrite_keeps_response (v : Word) (s : State) :
    ∃ t, cmdWrite v s = .next t ∧ t.response = s.response := by
  rcases cmdWrite_cases v s with ⟨-, e⟩ | ⟨-, -, e⟩ | ⟨-, -, e⟩ | ⟨-, i, -, -, e⟩
  · exact ⟨_, e, dropWrite_response s⟩
  · exact ⟨_, e, errorComplete_response .illegalCommand s⟩
  · exact ⟨_, e, rfl⟩
  · exact ⟨_, e, commandStart_response i s⟩

/-- A write to any register answers a next state with the response as it was (R45, R46). -/
theorem writeReg_keeps_response (r : BusReg) (v : Word) (s : State) :
    ∃ t, writeReg r v s = .next t ∧ t.response = s.response := by
  rcases writeReg_cases r v s with
    ⟨-, e⟩ | ⟨-, e⟩ | ⟨-, e⟩ | ⟨-, -, e⟩ | ⟨-, -, a, b, n, k, e, -⟩ | e
  · exact ⟨_, e, ctrlWrite_response v s⟩
  · exact ⟨_, e, statusWrite_response v s⟩
  · rw [e]; exact cmdWrite_keeps_response v s
  · exact ⟨_, e, dropWrite_response s⟩
  · exact ⟨_, e, rfl⟩
  · exact ⟨_, e, rfl⟩

/-! ### Reserved offsets (R50) -/

theorem windowWord_eq_reserved {nw i : Nat} (reg : Nat → BusReg) (h : nw ≤ i) : windowWord nw reg i = .reserved :=
  if_neg (Nat.not_lt.mpr h)

/-- The offsets between TDONE and the OPA window. -/
theorem decodeOffset_eq_reserved_of_control (nw : Nat) {off : Offset} (hl : 0x001C ≤ off.toNat)
    (hu : off.toNat ≤ 0x0FFF) : decodeOffset nw off = .reserved := by
  have hne : ∀ k < 0x001C, off.toNat ≠ k := by omega
  simp [decodeOffset, show off.toNat < 0x1000 by omega, hne]

/-- The offsets above the RES window. -/
theorem decodeOffset_eq_reserved_of_top (nw : Nat) {off : Offset} (hl : 0x5000 ≤ off.toNat) :
    decodeOffset nw off = .reserved := by
  have hge : ∀ k ≤ 0x5000, ¬ off.toNat < k := by omega
  simp [decodeOffset, hge]

/-- The words at or above NW of the four windows; above the windows every offset is reserved in any case. -/
theorem decodeOffset_eq_reserved_of_window {nw : Nat} {off : Offset} (hl : 0x1000 ≤ off.toNat)
    (hw : nw ≤ off.toNat % 0x1000 / 4) : decodeOffset nw off = .reserved := by
  simp only [decodeOffset, if_neg (Nat.not_lt.mpr hl)]
  split_ifs with hA hB hN hR
  · exact windowWord_eq_reserved .opA (by omega)
  · exact windowWord_eq_reserved .opB (by omega)
  · exact windowWord_eq_reserved .opN (by omega)
  · exact windowWord_eq_reserved .res (by omega)
  · rfl

end Sys2Proof.Machine
end

section
/-! PROOF. The statements about the response of a bus access and about reserved offsets (20_memory.md). -/

namespace Sys2Proof.Machine

/-- Settles O32: a refused access is `busError`; a legal read answers with data, and no register write changes the response
OKAY that a legal write begins with. -/
theorem onlyIllegalAccessGetsBusErr : Obligations.OnlyIllegalAccessGetsBusErr := by
  intro s off size v
  refine ⟨fun h => ⟨busTxn_read_refused h s, busWrite_refused h v s⟩, fun ha hs => ?_⟩
  subst hs
  refine ⟨⟨_, _, busTxn_read_aligned ha s, rfl⟩, ?_⟩
  rw [busWrite_eq ha]
  exact writeReg_keeps_response _ v _

/-- Settles O40: each of the three kinds of offset decodes to `reserved`, which draws nothing, reads 0 and ignores a write. -/
theorem reservedOffsetsReadZeroIgnoreWrites : Obligations.ReservedOffsetsReadZeroIgnoreWrites := by
  intro s off v ha hkind
  have hr : decodeOffset s.nw off = .reserved := by
    rcases hkind with ⟨hl, hu⟩ | ⟨hl, -⟩ | ⟨hl, -, hw⟩
    · exact decodeOffset_eq_reserved_of_control s.nw hl hu
    · exact decodeOffset_eq_reserved_of_top s.nw hl
    · exact decodeOffset_eq_reserved_of_window hl hw
  refine ⟨busTxn_read_of_not_free ha hr rfl, ?_⟩
  rw [busWrite_eq ha, hr]; rfl

end Sys2Proof.Machine
end

section
/-! PROOF. The decoder and the encoder of command words (30_encoding.md R57 to R61), and the CMD write of an illegal word. -/

namespace Sys2Proof.Machine

/-! ### The two fields of a command word (R57) -/

/-- A word is its two fields, RSVD above OP. -/
theorem rsvdField_append_opField (v : Word) : rsvdField v ++ opField v = v := by
  rw [rsvdField, opField, BitVec.extractLsb'_append_extractLsb'_eq_extractLsb' (by rfl), BitVec.extractLsb'_eq_self]

/-- Words with equal fields are equal. -/
theorem word_eq_of_fields_eq {v w : Word} (hr : rsvdField v = rsvdField w) (ho : opField v = opField w) : v = w := by
  rw [← rsvdField_append_opField v, hr, ho, rsvdField_append_opField]

@[simp] theorem rsvdField_encode (i : Instr) : rsvdField (encode i) = 0#28 := by cases i <;> rfl

/-- The word of a command is its opcode. -/
theorem toNat_opField_encode (i : Instr) : (opField (encode i)).toNat = (encode i).toNat := by cases i <;> rfl

theorem toNat_encode_le (i : Instr) : (encode i).toNat ≤ 5 := by cases i <;> decide

/-! ### What the decoder answers (R58 to R60) -/

/-- The opcode map: an opcode is that of a command, which it selects, or it is one of 6 to 15 (R60, R61). -/
theorem decodeOp_cases (op : BitVec 4) :
    (∃ i, op = opField (encode i) ∧ decodeOp op = .ok i) ∨ (6 ≤ op.toNat ∧ ∃ e, decodeOp op = .error e) := by
  unfold decodeOp
  split
  case h_1 h => exact .inl ⟨.nop, BitVec.eq_of_toNat_eq h, rfl⟩
  case h_2 h => exact .inl ⟨.modexp, BitVec.eq_of_toNat_eq h, rfl⟩
  case h_3 h => exact .inl ⟨.modmul, BitVec.eq_of_toNat_eq h, rfl⟩
  case h_4 h => exact .inl ⟨.jacobi, BitVec.eq_of_toNat_eq h, rfl⟩
  case h_5 h => exact .inl ⟨.sstrial, BitVec.eq_of_toNat_eq h, rfl⟩
  case h_6 h => exact .inl ⟨.sstest, BitVec.eq_of_toNat_eq h, rfl⟩
  case h_7 =>
    have h6 : 6 ≤ op.toNat := by simp only [imp_false] at *; omega
    exact .inr ⟨h6, _, rfl⟩

/-- A word is that of a command, which it selects, or it is illegal (R58, R59). -/
theorem decode_cases (v : Word) :
    (∃ i, v = encode i ∧ decode v = .ok i) ∨ (IllegalCommandWord v ∧ ∃ e, decode v = .error e) := by
  by_cases hr : rsvdField v = 0#28
  · have hd : decode v = decodeOp (opField v) := if_pos hr
    rw [hd]
    rcases decodeOp_cases (opField v) with ⟨i, ho, hi⟩ | ⟨h6, he⟩
    · exact .inl ⟨i, word_eq_of_fields_eq (hr.trans (rsvdField_encode i).symm) ho, hi⟩
    · exact .inr ⟨.inr h6, he⟩
  · exact .inr ⟨.inl hr, _, if_neg hr⟩

/-- R58: the words that are not illegal, field by field. -/
theorem not_illegalCommandWord_iff (v : Word) :
    ¬IllegalCommandWord v ↔ v.extractLsb 31 4 = 0#28 ∧ (v.extractLsb 3 0).toNat ≤ 5 := by
  rw [IllegalCommandWord, not_or, not_not, Nat.not_le, Nat.lt_succ_iff]

theorem not_illegalCommandWord_encode (i : Instr) : ¬IllegalCommandWord (encode i) :=
  (not_illegalCommandWord_iff _).mpr
    ⟨rsvdField_encode i, (toNat_opField_encode i).trans_le (toNat_encode_le i)⟩

/-- An illegal word selects no command (R59, R60). -/
theorem decode_of_illegal {v : Word} (h : IllegalCommandWord v) : ∃ e, decode v = .error e := by
  rcases decode_cases v with ⟨i, rfl, -⟩ | ⟨-, he⟩
  · exact absurd h (not_illegalCommandWord_encode i)
  · exact he

@[simp] theorem decode_encode (i : Instr) : decode (encode i) = .ok i := by cases i <;> rfl

/-- A word decodes to a command exactly when it is the command's own word. -/
theorem decode_eq_ok_iff (v : Word) (i : Instr) : decode v = .ok i ↔ v = encode i := by
  refine ⟨fun h => ?_, fun h => by rw [h, decode_encode]⟩
  rcases decode_cases v with ⟨j, hv, hj⟩ | ⟨-, e, he⟩
  · rw [h] at hj; cases hj; exact hv
  · rw [h] at he; cases he

/-- Exactly the words that are not illegal select a command. -/
theorem exists_decode_eq_ok_iff (v : Word) : (∃ i, decode v = .ok i) ↔ ¬IllegalCommandWord v := by
  constructor
  · rintro ⟨i, hi⟩
    rw [(decode_eq_ok_iff v i).mp hi]
    exact not_illegalCommandWord_encode i
  · intro hlegal
    rcases decode_cases v with ⟨i, -, hi⟩ | ⟨hillegal, -⟩
    · exact ⟨i, hi⟩
    · exact absurd hillegal hlegal

/-! ### CMD writes (R88, R90) -/

/-- R45, R88: a write to CMD. -/
theorem busTxn_write_cmd (v : Word) (s : State) :
    busTxn (.write 0x0010#15 4 v) s = cmdWrite v { s with response := .okay } :=
  busWrite_eq (by decide) v s

/-- R46: a CMD write while busy is dropped, whatever its word. -/
theorem cmdWrite_of_busy (v : Word) {s : State} (hb : s.busy = true) : cmdWrite v s = .next (dropWrite s) := by
  rw [cmdWrite, if_pos hb]

/-- R90: an illegal word written while idle ends in the error completion. -/
theorem cmdWrite_of_illegal {v : Word} {s : State} (hv : IllegalCommandWord v) (hb : s.busy = false) :
    cmdWrite v s = .next (errorComplete .illegalCommand s) := by
  obtain ⟨e, he⟩ := decode_of_illegal hv
  simp [cmdWrite, hb, he, illegalWord]

/-- R35, R97: after an error completion STATUS shows the error's code, DONE, and WBUSY as it was. -/
theorem statusWord_errorComplete (code : ErrCode) (s : State) :
    statusWord (errorComplete code s) = 0#15 ++ BitVec.ofBool s.wbusy ++ 0#8 ++ errBits code ++ 0b0010#4 := by
  simp only [statusWord, errorComplete_wbusy, errorComplete_reason, errorComplete_jsym, errorComplete_verdict,
    errorComplete_err, errorComplete_done, errorComplete_busy]
  cases s.wbusy <;> cases code <;> rfl

end Sys2Proof.Machine
end

section
/-! PROOF. The statements about the decoder and about illegal command words (30_encoding.md). -/

namespace Sys2Proof.Machine

/-- Settles O2: a word is its two fields, so the only word that decodes to a command is the command's encoding. -/
theorem decodeAgreesWithEncode : Obligations.DecodeAgreesWithEncode := by
  refine ⟨fun v => ?legal, decode_eq_ok_iff, fun v i h => ?opcode, rfl, rfl, rfl, rfl, rfl, rfl⟩
  case legal => rw [exists_decode_eq_ok_iff, not_illegalCommandWord_iff]
  case opcode =>
    rw [(decode_eq_ok_iff v i).mp h]
    exact (toNat_opField_encode i).symm

/-- Settles O9: an illegal word selects no command, so its write ends in the error completion, or is dropped while busy. -/
theorem illegalWordCompletesWithError : Obligations.IllegalWordCompletesWithError := by
  intro s v hv
  refine ⟨fun hidle => ?idle, fun hbusy => ?busy⟩
  case busy => exact (busTxn_write_cmd v s).trans (cmdWrite_of_busy v hbusy)
  case idle =>
    refine ⟨_, (busTxn_write_cmd v s).trans (cmdWrite_of_illegal hv hidle),
      rfl, rfl, rfl, wideVal_zeroWords s.nw, rfl, rfl, rfl, rfl, ?_⟩
    rw [statusWord_errorComplete]
    cases s.wbusy <;> rfl

end Sys2Proof.Machine
end

section
/-! PROOF. The Jacobi symbol's mapping into [0, n) and its JSYM code (41_jacobi.md R78). -/

namespace Sys2Proof.Machine

/-! ### MapJ and EncJ at each symbol (R78) -/

@[simp] theorem mapJ_one (n : Nat) : mapJ 1 n = 1 % n := if_pos rfl

@[simp] theorem mapJ_neg_one (n : Nat) : mapJ (-1) n = n - 1 := rfl

@[simp] theorem mapJ_zero (n : Nat) : mapJ 0 n = 0 := rfl

@[simp] theorem encJ_one : encJ 1 = .plus := rfl

@[simp] theorem encJ_neg_one : encJ (-1) = .minus := rfl

@[simp] theorem encJ_zero : encJ 0 = .noSymbol := rfl

/-- Settles O17: each symbol takes its own branch of MapJ and of EncJ, and the three codes are those of JSYM. -/
theorem symbolIsMappedAndEncoded : Obligations.SymbolIsMappedAndEncoded := by
  refine ⟨fun n => ⟨mapJ_one n, mapJ_neg_one n, mapJ_zero n⟩, ?plus, ?minus, ?noSymbol⟩
  case plus => rw [encJ_one]; rfl
  case minus => rw [encJ_neg_one]; rfl
  case noSymbol => rw [encJ_zero]; rfl

end Sys2Proof.Machine
end

section
/-! PROOF. What a write to CTRL, to STATUS and of NOP's word to CMD does, case by case (43_control.md R89, R91, R93). -/

namespace Sys2Proof.Machine

/-! ### CTRL writes (R91) -/

/-- SRST goes before the other bits. -/
theorem ctrlWrite_of_srst {v : Word} (h2 : v.getLsbD 2 = true) (s : State) : ctrlWrite v s = resetRegs s := by
  rw [ctrlWrite, if_pos h2]

/-- ABORT of a running command, with IE already written. -/
theorem ctrlWrite_of_abort {v : Word} {s : State} (h2 : v.getLsbD 2 = false) (h1 : v.getLsbD 1 = true)
    (hb : s.busy = true) : ctrlWrite v s = errorComplete .aborted { s with ie := v.getLsbD 0 } := by
  rcases ctrlWrite_cases v s with ⟨h2', -⟩ | ⟨-, -, -, e⟩ | ⟨-, hna, -⟩
  · rw [h2] at h2'; cases h2'
  · exact e
  · exact absurd hna (by rw [h1, hb]; decide)

/-- Without SRST, and without a running command to abort, only IE is written. -/
theorem ctrlWrite_of_no_action {v : Word} {s : State} (h2 : v.getLsbD 2 = false)
    (hna : v.getLsbD 1 = false ∨ s.busy = false) : ctrlWrite v s = { s with ie := v.getLsbD 0 } := by
  rcases ctrlWrite_cases v s with ⟨h2', -⟩ | ⟨-, h1, hb, -⟩ | ⟨-, -, e⟩
  · rw [h2] at h2'; cases h2'
  · exact absurd hna (by rw [h1, hb]; decide)
  · exact e

/-! ### STATUS writes (R93) -/

/-- R45, R93: a write to STATUS. -/
theorem busTxn_write_status (v : Word) (s : State) :
    busTxn (.write 0x000C#15 4 v) s = .next (statusWrite v { s with response := .okay }) :=
  busWrite_eq (by decide) v s

/-- DONE and WBUSY are cleared by ones, and nothing else is written. -/
theorem statusWrite_eq_ite (v : Word) (s : State) :
    statusWrite v s = { s with done := if v.getLsbD 1 then false else s.done,
                               wbusy := if v.getLsbD 16 then false else s.wbusy } := by
  simp only [statusWrite, Bool.if_false_left, Bool.decide_eq_true, Bool.and_comm]

/-- R38, R93: the acknowledgement of a completion deasserts irq. -/
theorem irq_statusWrite_of_ack {v : Word} (h1 : v.getLsbD 1 = true) (s : State) : irq (statusWrite v s) = false :=
  irq_of_not_done (by rw [statusWrite_done, h1, Bool.not_true, Bool.and_false])

/-! ### NOP at its CMD write (R88, R89) -/

/-- NOP's word written while idle has the command's effect at once. -/
theorem cmdWrite_encode_nop {s : State} (hb : s.busy = false) : cmdWrite (encode .nop) s = exec .nop s := by
  rw [cmdWrite, if_neg (ne_true_of_eq_false hb), decode_encode]; rfl

end Sys2Proof.Machine
end

section
/-! PROOF. The statements about CTRL writes, STATUS writes and NOP (43_control.md). -/

namespace Sys2Proof.Machine

/-- Settles O44: a STATUS write is `statusWrite` on the state with the response OKAY, busy or not. -/
theorem statusWriteClearsByOnes : Obligations.StatusWriteClearsByOnes := by
  intro s v
  rw [busTxn_write_status]
  refine ⟨by rw [statusWrite_eq_ite], fun h1 t ht => ?_⟩
  cases ht
  exact irq_statusWrite_of_ack h1 _

/-- Settles O43: the three clauses are the branches of a CTRL write, on the state with the response OKAY. -/
theorem ctrlWriteActions : Obligations.CtrlWriteActions := by
  intro s v
  rw [busTxn_write_ctrl]
  refine ⟨fun h2 => ?reset, fun h2 h1 hb => ?abort, fun h2 hna => ?enable⟩
  case reset => exact congrArg _ (ctrlWrite_of_srst h2 _)
  case abort => exact congrArg _ (ctrlWrite_of_abort h2 h1 hb)
  case enable => exact congrArg _ (ctrlWrite_of_no_action h2 hna)

/-- Settles O8: NOP's word is 0, so its CMD write is performed while idle and dropped while busy; the command's DONE and
its frame give irq. -/
theorem nopCompletesAtOnce : Obligations.NopCompletesAtOnce := by
  refine ⟨exec_nop, fun s hidle => ?idle, fun s hbusy => ?busy, fun t ht => ?status, fun s t hie ht => ?irq⟩
  case idle => exact (busTxn_write_cmd 0#32 s).trans (cmdWrite_encode_nop hidle)
  case busy => exact (busTxn_write_cmd 0#32 s).trans (cmdWrite_of_busy 0#32 hbusy)
  case status => rw [exec_nop] at ht; cases ht; rfl
  case irq => exact (irq_eq_true_iff t).mpr ⟨exec_done ht, (exec_frame ht).ie.trans hie⟩

end Sys2Proof.Machine
end

section
/-! PROOF. The error completion (60_exceptions.md R97). -/

namespace Sys2Proof.Machine

/-- Settles O10: each of the three causes is the error completion by definition, as are its writes; that RES then has the
value 0 is the value of the zero words, at any width. -/
theorem errorCompletionZeroesResults : Obligations.ErrorCompletionZeroesResults := by
  refine ⟨fun s code => ?raised, fun s => ⟨?illegal, ?abort⟩, fun s code => ⟨?writes, ?zero⟩⟩
  case raised => rfl
  case illegal => rfl
  case abort => rfl
  case writes => rfl
  case zero => rw [errorComplete_res, wideVal_zeroWords]

end Sys2Proof.Machine
end

section
/-! PROOF. The soft reset and the edges of the reset input, as what they leave of the whole state (70_reset_and_hazards.md
R110 to R112). -/

namespace Sys2Proof.Machine

/-! ### The state a reset leaves (R110) -/

/-- At the default width a reset leaves the reset state, but for what is not the engine's. -/
theorem resetRegs_eq_reset {s : State} (hnw : s.nw = Config.defaultNw) :
    resetRegs s = { State.reset with
      resetPin := s.resetPin, host := s.host, turns := s.turns, response := s.response, draws := s.draws } := by
  rw [resetRegs, hnw]; rfl

/-- A reset deasserts irq. -/
theorem irq_resetRegs (s : State) : irq (resetRegs s) = false := irq_of_not_done (resetRegs_done s)

/-! ### The soft reset (R91, R112) -/

/-- A CTRL write with SRST is the reset, on the state with the response OKAY. -/
theorem busTxn_write_srst {v : Word} (h2 : v.getLsbD 2 = true) (s : State) :
    busTxn (.write 0x0008#15 4 v) s = .next (resetRegs { s with response := .okay }) := by
  rw [busTxn_write_ctrl, ctrlWrite_of_srst h2]

/-! ### The edges of the reset input (R111) -/

theorem step_of_assertReset {s : State} {ts : List Turn} (h : s.turns = .assertReset :: ts) :
    step s = .next (assertReset { s with turns := ts }) := by
  rw [step, takeTurn, h]

theorem step_of_releaseReset {s : State} {ts : List Turn} (h : s.turns = .releaseReset :: ts) :
    step s = .next (releaseReset { s with turns := ts }) := by
  rw [step, takeTurn, h]

/-- The release of an asserted reset input resets the registers. -/
theorem releaseReset_of_pin {s : State} (hp : s.resetPin = true) :
    releaseReset s = { resetRegs s with resetPin := false } := if_pos hp

/-- A run goes on from the next state its first step answers. -/
theorem run_succ_of_step {s t : State} (h : step s = .next t) (k : Nat) : core.run (k + 1) s = core.run k t := by
  have hcore : core.step s = .next t := h
  simp only [Host.Core.run, hcore]

/-- An assertion of the reset input and its release, one after the other, are one reset with the input released: the second
reset of the registers adds nothing to the first. -/
theorem run_assertReset_releaseReset {s : State} {ts : List Turn} (h : s.turns = .assertReset :: .releaseReset :: ts) :
    core.run 2 s = .next (resetRegs { s with turns := ts, resetPin := false }) := by
  have hrelease : step (assertReset { s with turns := .releaseReset :: ts }) =
      .next (releaseReset { assertReset { s with turns := .releaseReset :: ts } with turns := ts }) :=
    step_of_releaseReset rfl
  rw [run_succ_of_step (step_of_assertReset h), run_succ_of_step hrelease, releaseReset_of_pin rfl]
  rfl

end Sys2Proof.Machine
end

section
/-! PROOF. The statements about the reset state and the soft reset (70_reset_and_hazards.md). -/

namespace Sys2Proof.Machine

/-- Settles O47: the wide registers of the reset state are zero words and its other fields are written out in its definition;
SRST and the two edges of the reset input are each one reset, which at the default width leaves the reset state. -/
theorem resetStateIsTheSpecs : Obligations.ResetStateIsTheSpecs := by
  have hzero : wideVal (zeroWords Config.defaultNw) = 0 := wideVal_zeroWords _
  refine ⟨hzero, hzero, hzero, hzero, rfl, rfl, rfl, rfl, rfl, rfl, rfl, rfl, rfl, rfl, rfl, rfl, rfl, rfl, rfl, rfl,
    fun s v hnw h2 => ?soft, fun s ts hnw hturns => ?hard⟩
  case soft =>
    rw [busTxn_write_srst h2, resetRegs_eq_reset (s := { s with response := .okay }) hnw]
  case hard =>
    rw [run_assertReset_releaseReset hturns,
      resetRegs_eq_reset (s := { s with turns := ts, resetPin := false }) hnw]
    rfl

/-- Settles O48: a CTRL write with SRST is the reset, which puts zero words into the wide registers at any width and every
other register to its reset value. -/
theorem softResetRestoresResetState : Obligations.SoftResetRestoresResetState := by
  intro s v h2
  have hzero : wideVal (zeroWords s.nw) = 0 := wideVal_zeroWords s.nw
  exact ⟨_, busTxn_write_srst h2 s, rfl, hzero, hzero, hzero, hzero, rfl, rfl, rfl, rfl, rfl, rfl, rfl, rfl, rfl, rfl,
    rfl, irq_resetRegs _⟩

end Sys2Proof.Machine
end

section
/-! PROOF. The invariant of the engine, kept by every step (10_state.md R14, R21, R29 to R37; 60_exceptions.md R96, R97). -/

namespace Sys2Proof.Machine

/-! ### What the outcomes of the commands have in common -/

/-- What the invariant asks of a command's outcome: how VERDICT, JSYM, REASON, RES and TDONE go together (R32 to R34, R37). -/
def CmdResult.Consistent : CmdResult → Prop
  | .complete r v js rs t =>
    (v = true ↔ rs = .trivial ∨ rs = .passed) ∧
    (rs = .rejected ∨ rs = .trivial → r = 0 ∧ t = 0) ∧
    (js ≠ .noSymbol → (rs = .noReason ∨ rs = .mismatch ∨ rs = .passed) ∧ t = 0) ∧
    (t ≠ 0 → rs = .passed ∨ rs = .mismatch ∨ rs = .jacobiUndefined)
  | .raise _ => True

/-- A successful completion without a verdict and without trials, as MODEXP, MODMUL and JACOBI have it. -/
theorem consistent_complete_noReason (r : Nat) (js : Jsym) :
    (CmdResult.complete r false js .noReason 0).Consistent := by simp [CmdResult.Consistent]

theorem modexpResult_consistent (b e m : Nat) : (modexpResult b e m).Consistent := by
  unfold modexpResult
  split
  · trivial
  · exact consistent_complete_noReason _ _

theorem modmulResult_consistent (a c m : Nat) : (modmulResult a c m).Consistent := by
  unfold modmulResult
  split
  · trivial
  · exact consistent_complete_noReason _ _

theorem jacobiResult_consistent (a n : Nat) : (jacobiResult a n).Consistent := by
  unfold jacobiResult
  split_ifs
  · trivial
  · trivial
  · trivial
  · exact consistent_complete_noReason _ _

theorem rejectedResult_consistent : rejectedResult.Consistent := by simp [rejectedResult, CmdResult.Consistent]

theorem trivialResult_consistent : trivialResult.Consistent := by simp [trivialResult, CmdResult.Consistent]

theorem sstrialOutcome_consistent (t : Trial) : (sstrialOutcome t).Consistent := by
  cases t <;> simp [sstrialOutcome, CmdResult.Consistent]

theorem sstrialResult_consistent (p a : Nat) : (sstrialResult p a).Consistent := by
  unfold sstrialResult
  split
  · exact rejectedResult_consistent
  · exact trivialResult_consistent
  · split
    · trivial
    · exact sstrialOutcome_consistent _

theorem sstestLoop_consistent (source : Nat → Nat) (p k c t last : Nat) :
    (sstestLoop source p k c t last).1.Consistent := by
  induction k generalizing c t last with
  | zero => simp [sstestLoop, CmdResult.Consistent]
  | succ k ih =>
    unfold sstestLoop
    split
    · simp [CmdResult.Consistent]
    · simp [CmdResult.Consistent]
    · exact ih _ _ _

theorem sstestResult_consistent (source : Nat → Nat) (p k c : Nat) : (sstestResult source p k c).1.Consistent := by
  unfold sstestResult
  split
  · exact rejectedResult_consistent
  · exact trivialResult_consistent
  · exact sstestLoop_consistent _ _ _ _ _ _

theorem resultOf_consistent (i : Instr) (s : State) : (resultOf i s).1.Consistent := by
  cases i with
  | nop => exact consistent_complete_noReason _ _
  | modexp => exact modexpResult_consistent _ _ _
  | modmul => exact modmulResult_consistent _ _ _
  | jacobi => exact jacobiResult_consistent _ _
  | sstrial => exact sstrialResult_consistent _ _
  | sstest => exact sstestResult_consistent _ _ _ _

/-! ### The invariant after each shared operation -/

/-- R97: every error completion leads into the invariant, while the reset input is not asserted. -/
theorem errorComplete_inv {s : State} (hw : s.WidthOk) (hp : s.resetPin = false) (code : ErrCode) :
    (errorComplete code s).Inv where
  widthOk := { hw with res := length_zeroWords s.nw }
  busy_iff_active := rfl
  active_ne_nop := by simp
  not_busy_and_done := by simp
  busy_clears := by simp
  error_zeroes _ := ⟨rfl, rfl, rfl, rfl, rfl⟩
  verdict_iff_reason := by simp
  precheck_zeroes := by simp
  symbol_reason := by simp
  tdone_reason := by simp
  reset_quiet := by simp [hp]

/-- R96: so does every successful completion of a consistent outcome. -/
theorem complete_inv {s : State} (hw : s.WidthOk) (hp : s.resetPin = false) {r : Nat} {v : Bool} {js : Jsym}
    {rs : Reason} {t : Nat} (hc : (CmdResult.complete r v js rs t).Consistent) : (complete r v js rs t s).Inv := by
  obtain ⟨hverdict, hprecheck, hsymbol, htrials⟩ := hc
  exact
    { widthOk := { hw with res := length_wideOfNat s.nw r }
      busy_iff_active := rfl
      active_ne_nop := by simp
      not_busy_and_done := by simp
      busy_clears := by simp
      error_zeroes := by simp
      verdict_iff_reason := hverdict
      precheck_zeroes := fun h => by
        obtain ⟨hr, ht⟩ := hprecheck h
        subst hr ht
        exact ⟨wideOfNat_zero s.nw, rfl⟩
      symbol_reason := fun h => ⟨(hsymbol h).1, by rw [complete_tdone, (hsymbol h).2]⟩
      tdone_reason := fun _ h => htrials fun ht => h (by rw [complete_tdone, ht])
      reset_quiet := by simp [hp] }

theorem finish_inv {s : State} (hw : s.WidthOk) (hp : s.resetPin = false) {c : CmdResult} (hc : c.Consistent) :
    (finish c s).Inv := by
  cases c with
  | complete r v js rs t => exact complete_inv hw hp hc
  | raise code => exact errorComplete_inv hw hp code

/-- R110 to R112: a reset leads into the invariant, whatever the reset input is. -/
theorem resetRegs_inv {s : State} (hwidth : legalWidth s.nw = true) : (resetRegs s).Inv where
  widthOk := ⟨hwidth, length_zeroWords _, length_zeroWords _, length_zeroWords _, length_zeroWords _⟩
  busy_iff_active := rfl
  active_ne_nop := by simp
  not_busy_and_done := by simp
  busy_clears := by simp
  error_zeroes := by simp
  verdict_iff_reason := by simp
  precheck_zeroes := by simp
  symbol_reason := by simp
  tdone_reason := by simp
  reset_quiet _ := ⟨rfl, rfl⟩

/-- R88: the start of a command with a busy phase. -/
theorem commandStart_inv {s : State} (hw : s.WidthOk) (hp : s.resetPin = false) {i : Instr} (hn : i ≠ .nop) :
    (commandStart i s).Inv where
  widthOk := { hw with }
  busy_iff_active := rfl
  active_ne_nop := by simpa using hn
  not_busy_and_done := by simp
  busy_clears _ := ⟨rfl, rfl, rfl, rfl⟩
  error_zeroes := by simp
  verdict_iff_reason := by simp
  precheck_zeroes := by simp
  symbol_reason := by simp
  tdone_reason := by simp
  reset_quiet := by simp [hp]

/-- R89: NOP keeps the invariant of an idle engine. -/
theorem nop_inv {s : State} (hi : s.Inv) (hb : s.busy = false) (hp : s.resetPin = false) :
    { s with err := .noError, done := true : State }.Inv :=
  { hi with
    widthOk := { hi.widthOk with }
    not_busy_and_done := by simp [hb]
    busy_clears := by simp [hb]
    error_zeroes := by simp
    reset_quiet := by simp [hp] }

/-- R91: a CTRL write keeps the invariant: a reset, an abort, or IE, of which the invariant says nothing. -/
theorem ctrlWrite_inv {s : State} (hi : s.Inv) (hp : s.resetPin = false) (v : Word) : (ctrlWrite v s).Inv := by
  rcases ctrlWrite_cases v s with ⟨-, e⟩ | ⟨-, -, -, e⟩ | ⟨-, -, e⟩ <;> rw [e]
  · exact resetRegs_inv hi.widthOk.width
  · exact errorComplete_inv (s := { s with ie := v.getLsbD 0 }) { hi.widthOk with } hp .aborted
  · exact { hi with widthOk := { hi.widthOk with } }

/-- R93: a STATUS write can only clear DONE and WBUSY. -/
theorem statusWrite_inv {s : State} (hi : s.Inv) (v : Word) : (statusWrite v s).Inv :=
  { hi with
    widthOk := { hi.widthOk with }
    not_busy_and_done := fun ⟨hb, hd⟩ => hi.not_busy_and_done ⟨hb, (Bool.and_eq_true_iff.mp hd).1⟩
    reset_quiet := fun hp => by
      obtain ⟨hb, hd⟩ := hi.reset_quiet hp
      exact ⟨hb, by rw [statusWrite_done, hd, Bool.false_and]⟩ }

/-- The invariant says nothing of the schedule, the host, the response and the draws. -/
theorem State.Inv.outside {s : State} (hi : s.Inv) (ts : List Turn) (h : List HostOp) (r : Response) (d : Nat) :
    { s with turns := ts, host := h, response := r, draws := d : State }.Inv :=
  { hi with widthOk := { hi.widthOk with } }

/-- While a command runs the reset input is not asserted. -/
theorem State.Inv.resetPin_of_busy {s : State} (hi : s.Inv) (hb : s.busy = true) : s.resetPin = false := by
  refine Bool.eq_false_iff.mpr fun hp => ?_
  rw [(hi.reset_quiet hp).1] at hb; cases hb

/-- R111: an edge of the reset input. -/
theorem resetEdge_inv {s : State} (hi : s.Inv) (ts : List Turn) (b : Bool) :
    { resetRegs s with turns := ts, resetPin := b : State }.Inv :=
  have hreset : (resetRegs s).Inv := resetRegs_inv hi.widthOk.width
  { hreset with widthOk := { hreset.widthOk with }, reset_quiet := fun _ => ⟨rfl, rfl⟩ }

/-- The command in progress is not NOP and completes into the invariant. -/
theorem exec_active_inv {s t : State} {i : Instr} (hi : s.Inv) (hb : s.busy = true) (ha : s.activeOp = some i)
    (h : exec i s = .next t) : t.Inv := by
  have hn : i ≠ .nop := fun hnop => hi.active_ne_nop (hnop ▸ ha)
  rw [exec_eq_finish hn] at h; cases h
  have hdrawn := hi.outside s.turns s.host s.response (resultOf i s).2
  exact finish_inv hdrawn.widthOk (hi.resetPin_of_busy hb) (resultOf_consistent i s)

/-- R45: an operand write keeps the lengths of the registers. -/
theorem operandWrite_inv {s : State} (hi : s.Inv) {a b n : List Word} (k : Word) (ha : a.length = s.opa.length)
    (hb : b.length = s.opb.length) (hn : n.length = s.opn.length) :
    { s with opa := a, opb := b, opn := n, iter := k : State }.Inv :=
  { hi with
    widthOk :=
      { hi.widthOk with
        opa := ha.trans hi.widthOk.opa
        opb := hb.trans hi.widthOk.opb
        opn := hn.trans hi.widthOk.opn } }

/-- Settles O51: each case of a step is one of the operations above, and a host write finds the reset input released. -/
theorem everyStepKeepsTheInvariant : Obligations.EveryStepKeepsTheInvariant := by
  intro s t hi h
  have written (ts : List Turn) (rest : List HostOp) := hi.outside ts rest .okay s.draws
  cases step_case h with
  | quiet ts rest r d => exact hi.outside ts rest r d
  | engine i ts t _ hb ha he => exact exec_active_inv (hi.outside ts s.host s.response s.draws) hb ha he
  | reset ts b => exact resetEdge_inv hi ts b
  | ctrl v ts rest hw => exact ctrlWrite_inv (written ts rest) hw.2.1 v
  | status v ts rest => exact statusWrite_inv (written ts rest) v
  | drop _ _ ts rest => exact { written ts rest with widthOk := { (written ts rest).widthOk with } }
  | illegal _ _ ts rest hw => exact errorComplete_inv (written ts rest).widthOk hw.2.1 _
  | nop _ ts rest hw hb => exact nop_inv (written ts rest) hb hw.2.1
  | start _ _ ts rest hw _ hn => exact commandStart_inv (written ts rest).widthOk hw.2.1 hn
  | operand _ _ ts rest _ _ _ k _ _ _ ha hb hn => exact operandWrite_inv (written ts rest) k ha hb hn

end Sys2Proof.Machine
end

section
/-! PROOF. What a turn of each agent does, and that a step stops only on a transaction during reset (00_scope.md R13,
20_memory.md R54, R65; 60_exceptions.md R96; 70_reset_and_hazards.md R111). -/

namespace Sys2Proof.Machine

/-! ### The engine's turn (R96) -/

/-- Every command answers a next state, from every state. -/
theorem exec_next (i : Instr) (s : State) : ∃ t, exec i s = .next t := by cases i <;> exact ⟨_, rfl⟩

/-- A command with a busy phase ends it (R96, R97). -/
theorem exec_ends {i : Instr} (hn : i ≠ .nop) {s t : State} (h : exec i s = .next t) :
    t.busy = false ∧ t.done = true ∧ t.activeOp = none := by
  rw [exec_eq_finish hn] at h; cases h
  exact finish_ends _ _

theorem engineStep_of_idle {s : State} (hb : s.busy = false) : engineStep s = .next s := by simp [engineStep, hb]

theorem engineStep_of_active {s : State} {i : Instr} (hb : s.busy = true) (ha : s.activeOp = some i) :
    engineStep s = exec i s := by simp [engineStep, hb, ha]

/-- The engine's turn faults in no state in which BUSY = 1 comes with an ACTIVE_OP (log 11). -/
theorem engineStep_next {s : State} (h : s.busy = s.activeOp.isSome) : ∃ t, engineStep s = .next t := by
  rcases engineStep_cases s with ⟨-, e⟩ | ⟨hb, ha, -⟩ | ⟨-, i, -, e⟩
  · exact ⟨s, e⟩
  · rw [hb, ha] at h; cases h
  · rw [e]; exact exec_next i s

theorem engineStep_turns {s t : State} (h : engineStep s = .next t) : t.turns = s.turns := by
  rcases engineStep_cases s with ⟨-, e⟩ | ⟨-, -, e⟩ | ⟨-, i, -, e⟩ <;> rw [e] at h
  · cases h; rfl
  · cases h
  · exact (exec_frame h).turns

/-! ### The host's turn (R54, R65) -/

theorem hostStep_of_bus {s : State} {tx : Txn} {rest : List HostOp} (hp : s.resetPin = false)
    (hh : s.host = .bus tx :: rest) : hostStep s = busTxn tx { s with host := rest } := by
  simp [hostStep, hh, hp, hostOp]

theorem hostStep_of_poll {s : State} {off : Offset} {mask val : Word} {rest : List HostOp} (hp : s.resetPin = false)
    (hh : s.host = .poll off mask val :: rest) :
    hostStep s = .next (if pollMet (busRead off 4 s).response mask val then { busRead off 4 s with host := rest }
      else busRead off 4 s) := by
  simp [hostStep, hh, hp, hostOp]

/-- U14: a transaction in reset has no step (log 10). -/
theorem hostStep_of_reset {s : State} (hp : s.resetPin = true) (hh : s.host ≠ []) :
    hostStep s = .refused .transactionInReset := by
  rcases hostStep_cases s with ⟨hh', -⟩ | ⟨-, -, e⟩ | ⟨hp', -⟩ | ⟨hp', -⟩ | ⟨hp', -⟩
  · exact absurd hh' hh
  · exact e
  all_goals rw [hp] at hp'; cases hp'

/-- A write transaction, refused or not, answers a next state. -/
theorem busTxn_write_next (off : Offset) (size : Nat) (v : Word) (s : State) :
    ∃ t, busTxn (.write off size v) s = .next t := by
  by_cases hl : off.toNat % 4 ≠ 0 ∨ size ≠ 4
  · exact ⟨_, busWrite_refused hl v s⟩
  · obtain ⟨ha, rfl⟩ : off.toNat % 4 = 0 ∧ size = 4 := by omega
    obtain ⟨t, ht, -⟩ := writeReg_keeps_response (decodeOffset s.nw off) v { s with response := .okay }
    exact ⟨t, (busWrite_eq ha v s).trans ht⟩

/-- The host's turn answers a next state, or it is refused for a transaction in reset. -/
theorem hostStep_next_or_refused (s : State) :
    (∃ t, hostStep s = .next t) ∨ (hostStep s = .refused .transactionInReset ∧ s.resetPin = true ∧ s.host ≠ []) := by
  rcases hostStep_cases s with ⟨-, e⟩ | ⟨hh, hp, e⟩ | ⟨-, _, _, _, -, e⟩ | ⟨-, off, size, v, rest, -, e⟩ |
    ⟨-, _, _, _, _, -, e⟩
  · exact .inl ⟨_, e⟩
  · exact .inr ⟨e, hp, hh⟩
  · exact .inl ⟨_, e⟩
  · rw [e]; exact .inl (busTxn_write_next off size v _)
  · exact .inl ⟨_, e⟩

/-! ### No transaction changes the schedule -/

@[simp] theorem ctrlWrite_turns (v : Word) (s : State) : (ctrlWrite v s).turns = s.turns := by
  rcases ctrlWrite_cases v s with ⟨-, e⟩ | ⟨-, -, -, e⟩ | ⟨-, -, e⟩ <;> rw [e] <;> rfl

theorem cmdWrite_turns {v : Word} {s t : State} (h : cmdWrite v s = .next t) : t.turns = s.turns := by
  rcases cmdWrite_cases v s with ⟨-, e⟩ | ⟨-, -, e⟩ | ⟨-, -, e⟩ | ⟨-, i, -, -, e⟩ <;> rw [e] at h <;> cases h <;> rfl

theorem writeReg_turns {r : BusReg} {v : Word} {s t : State} (h : writeReg r v s = .next t) : t.turns = s.turns := by
  rcases writeReg_cases r v s with ⟨-, e⟩ | ⟨-, e⟩ | ⟨-, e⟩ | ⟨-, -, e⟩ | ⟨-, -, a, b, n, k, e, -⟩ | e <;> rw [e] at h
  · cases h; exact ctrlWrite_turns v s
  · cases h; rfl
  · exact cmdWrite_turns h
  · cases h; rfl
  · cases h; rfl
  · cases h; rfl

theorem busTxn_write_turns {off : Offset} {size : Nat} {v : Word} {s t : State}
    (h : busTxn (.write off size v) s = .next t) : t.turns = s.turns := by
  by_cases hl : off.toNat % 4 ≠ 0 ∨ size ≠ 4
  · rw [busWrite_refused hl] at h; cases h; rfl
  · obtain ⟨ha, rfl⟩ : off.toNat % 4 = 0 ∧ size = 4 := by omega
    rw [busWrite_eq ha] at h
    exact (writeReg_turns h).trans rfl

@[simp] theorem busRead_turns (off : Offset) (size : Nat) (s : State) : (busRead off size s).turns = s.turns := by
  obtain ⟨r, d, e, -⟩ := busRead_eq off size s
  rw [e]

theorem hostStep_turns {s t : State} (h : hostStep s = .next t) : t.turns = s.turns := by
  rcases hostStep_cases s with ⟨-, e⟩ | ⟨-, -, e⟩ | ⟨-, _, _, _, -, e⟩ | ⟨-, off, size, v, rest, -, e⟩ |
    ⟨-, off, _, _, _, -, e⟩ <;> rw [e] at h
  · cases h; rfl
  · cases h
  · cases h; exact busRead_turns _ _ _
  · exact (busTxn_write_turns h).trans rfl
  · cases h; split <;> exact busRead_turns off 4 s

/-! ### One turn of the total order (R13, R54) -/

theorem step_of_host {s : State} {ts : List Turn} (h : s.turns = .host :: ts) :
    step s = hostStep { s with turns := ts } := by rw [step, takeTurn, h]

theorem step_of_engine {s : State} {ts : List Turn} (h : s.turns = .engine :: ts) :
    step s = engineStep { s with turns := ts } := by rw [step, takeTurn, h]

/-- With nothing scheduled an idle engine leaves the turn to the host (log 3). -/
theorem step_of_unscheduled_idle {s : State} (h : s.turns = []) (hb : s.busy = false) : step s = hostStep s := by
  rw [step, takeTurn, h]; exact if_neg (ne_true_of_eq_false hb)

/-- With nothing scheduled a running command completes (R120, log 3). -/
theorem step_of_unscheduled_busy {s : State} (h : s.turns = []) (hb : s.busy = true) : step s = engineStep s := by
  rw [step, takeTurn, h]; exact if_pos hb

/-- A step uses up the turn it takes. -/
theorem step_turns {s t : State} (h : step s = .next t) : t.turns = s.turns.tail := by
  rw [step] at h
  rcases takeTurn_cases s with
    ⟨a, -, c⟩ | ⟨a, -, c⟩ | ⟨ts, a, c⟩ | ⟨ts, a, c⟩ | ⟨ts, a, c⟩ | ⟨ts, a, c⟩ <;> rw [c] at h <;> rw [a, List.tail]
  · exact (engineStep_turns h).trans a
  · exact (hostStep_turns h).trans a
  · exact hostStep_turns h
  · exact engineStep_turns h
  · cases h; rfl
  · cases h; unfold releaseReset; split <;> rfl

/-- Where the command in progress is known, a step answers a next state or is refused for a transaction in reset. -/
theorem step_next_or_refused {s : State} (hactive : s.busy = s.activeOp.isSome) :
    (∃ t, step s = .next t) ∨
      (step s = .refused .transactionInReset ∧ s.resetPin = true ∧ s.host ≠ [] ∧
        (s.turns = [] ∨ ∃ ts, s.turns = .host :: ts)) := by
  rw [step]
  rcases takeTurn_cases s with
    ⟨-, -, c⟩ | ⟨a, -, c⟩ | ⟨ts, a, c⟩ | ⟨ts, -, c⟩ | ⟨ts, -, c⟩ | ⟨ts, -, c⟩ <;> rw [c]
  · exact .inl (engineStep_next hactive)
  · rcases hostStep_next_or_refused s with hnext | ⟨e, hp, hh⟩
    · exact .inl hnext
    · exact .inr ⟨e, hp, hh, .inl a⟩
  · rcases hostStep_next_or_refused { s with turns := ts } with hnext | ⟨e, hp, hh⟩
    · exact .inl hnext
    · exact .inr ⟨e, hp, hh, .inr ⟨ts, a⟩⟩
  · exact .inl (engineStep_next (s := { s with turns := ts }) hactive)
  · exact .inl ⟨_, rfl⟩
  · exact .inl ⟨_, rfl⟩

end Sys2Proof.Machine
end

section
/-! PROOF. The statements about every step: where it stops, what it changes, and that a running command ends. -/

namespace Sys2Proof.Machine

/-- Settles O6: the invariant gives a running command its ACTIVE_OP, so only the host's turn can stop. -/
theorem stepStopsOnlyOnTransactionInReset : Obligations.StepStopsOnlyOnTransactionInReset :=
  fun _ hi => step_next_or_refused hi.busy_iff_active

/-- Settles O50: the reset state is what a reset leaves of itself, at a legal width. -/
theorem resetStateMeetsTheInvariant : Obligations.ResetStateMeetsTheInvariant :=
  resetRegs_inv (s := State.reset) (by decide)

/-- A CTRL write that neither resets nor aborts leaves RES and TDONE. -/
theorem ctrlWrite_results_or_action (v : Word) (s : State) :
    ((ctrlWrite v s).res = s.res ∧ (ctrlWrite v s).tdone = s.tdone) ∨
      v.getLsbD 2 = true ∨ (v.getLsbD 1 = true ∧ s.busy = true) := by
  rcases ctrlWrite_cases v s with ⟨h2, -⟩ | ⟨-, h1, hb, -⟩ | ⟨-, -, e⟩
  · exact .inr (.inl h2)
  · exact .inr (.inr ⟨h1, hb⟩)
  · rw [e]; exact .inl ⟨rfl, rfl⟩

/-- A word the decoder refuses is illegal (R58 to R60). -/
theorem illegal_of_decode_error {v : Word} {e : IllegalWord} (h : decode v = .error e) : IllegalCommandWord v := by
  rcases decode_cases v with ⟨i, -, hi⟩ | ⟨hillegal, -⟩
  · rw [h] at hi; cases hi
  · exact hillegal

/-- Settles O53: the cases of a step either leave RES and TDONE or are among the causes named. -/
theorem resultsChangeOnlyByCompletionOrReset : Obligations.ResultsChangeOnlyByCompletionOrReset := by
  intro s t h hchanged
  have kept (hres : t.res = s.res) (htdone : t.tdone = s.tdone) : False :=
    hchanged.elim (fun hne => hne hres) fun hne => hne htdone
  cases step_case h with
  | quiet | status | drop | nop | start | operand => exact (kept rfl rfl).elim
  | engine _ _ _ ht hb => exact .inl ⟨hb, ht⟩
  | reset _ _ ht => exact .inr (.inl ht)
  | ctrl v ts rest hw =>
    rcases ctrlWrite_results_or_action v { s with turns := ts, host := rest, response := .okay } with ⟨hres, ht⟩ | hact
    · exact (kept hres ht).elim
    · exact .inr (.inr (.inl ⟨v, hw, hact⟩))
  | illegal v _ _ _ hw hb hd => exact .inr (.inr (.inr ⟨v, hw, hb, illegal_of_decode_error hd⟩))

/-- Settles O54: a running command is left running, is completed or aborted with DONE = 1, or is reset. -/
theorem runningCommandEndsInDoneOrReset : Obligations.RunningCommandEndsInDoneOrReset := by
  intro s t _ hbusy h
  have idle (hb : s.busy = false) : False := by rw [hbusy] at hb; cases hb
  cases step_case h with
  | quiet | status | drop => exact .inl hbusy
  | engine _ _ _ _ _ _ he => exact .inr (.inl (exec_done he))
  | reset _ _ ht => exact .inr (.inr (.inl ht))
  | ctrl v ts rest hw =>
    rcases ctrlWrite_cases v { s with turns := ts, host := rest, response := .okay } with
      ⟨h2, -⟩ | ⟨-, -, -, e⟩ | ⟨-, -, e⟩
    · exact .inr (.inr (.inr ⟨v, hw, h2⟩))
    · rw [e]; exact .inr (.inl rfl)
    · rw [e]; exact .inl hbusy
  | illegal _ _ _ _ _ hb => exact (idle hb).elim
  | nop _ _ _ _ hb => exact (idle hb).elim
  | start _ _ _ _ _ hb => exact (idle hb).elim
  | operand _ _ _ _ _ _ _ _ _ hb => exact (idle hb).elim

/-- What each case of a step does to WBUSY (R35): it keeps it, sets it by a dropped write, or is a step that clears it. -/
theorem step_wbusy {s t : State} (h : step s = .next t) :
    t.wbusy = s.wbusy ∨
    (t.wbusy = true ∧ s.busy = true ∧ ∃ v r, s.hostWrites r v ∧ (r = .cmd ∨ r.isOperand)) ∨
    (t.wbusy = false ∧ (s.resetTurn ∨
      ∃ v, (s.hostWrites .status v ∧ v.getLsbD 16 = true) ∨ (s.hostWrites .ctrl v ∧ v.getLsbD 2 = true))) := by
  cases step_case h with
  | quiet | illegal | nop | start | operand => exact .inl rfl
  | engine _ _ _ _ _ _ he => exact .inl (exec_frame he).wbusy
  | reset _ _ ht => exact .inr (.inr ⟨rfl, .inl ht⟩)
  | ctrl v ts rest hw =>
    rcases ctrlWrite_cases v { s with turns := ts, host := rest, response := .okay } with
      ⟨h2, e⟩ | ⟨-, -, -, e⟩ | ⟨-, -, e⟩ <;> rw [e]
    · exact .inr (.inr ⟨rfl, .inr ⟨v, .inr ⟨hw, h2⟩⟩⟩)
    · exact .inl rfl
    · exact .inl rfl
  | status v _ _ hw =>
    cases h16 : v.getLsbD 16 with
    | true =>
      exact .inr (.inr ⟨by rw [statusWrite_wbusy, h16, Bool.not_true, Bool.and_false], .inr ⟨v, .inl ⟨hw, h16⟩⟩⟩)
    | false => exact .inl (by rw [statusWrite_wbusy, h16, Bool.not_false, Bool.and_true])
  | drop r v _ _ hw hb hr => exact .inr (.inl ⟨rfl, hb, v, r, hw, hr⟩)

/-- Settles O55: a step that changes WBUSY is none of those that keep it. -/
theorem wbusyIsSticky : Obligations.WbusyIsSticky := by
  intro s t h
  rcases step_wbusy h with hkept | ⟨hset, hdropped⟩ | ⟨hclear, hcleared⟩
  · exact ⟨fun h0 h1 => absurd (h1.symm.trans (hkept.trans h0)) (by decide),
      fun h1 h0 => absurd (h0.symm.trans (hkept.trans h1)) (by decide)⟩
  · exact ⟨fun _ _ => hdropped, fun _ h0 => absurd (hset.symm.trans h0) (by decide)⟩
  · exact ⟨fun _ h1 => absurd (hclear.symm.trans h1) (by decide), fun _ _ => hcleared⟩

/-! ### A running command ends (R87, R120) -/

/-- A run of one step. -/
theorem run_one_of_step {s t : State} (h : step s = .next t) : core.run 1 s = .next t := run_succ_of_step h 0

/-- While a command runs a step answers a next state: the reset input is not asserted. -/
theorem step_next_of_busy {s : State} (hi : s.Inv) (hb : s.busy = true) : ∃ t, step s = .next t := by
  rcases step_next_or_refused hi.busy_iff_active with hnext | ⟨-, hp, -⟩
  · exact hnext
  · rw [hi.resetPin_of_busy hb] at hp; cases hp

/-- A running command has its ACTIVE_OP, which is not NOP. -/
theorem State.Inv.active_of_busy {s : State} (hi : s.Inv) (hb : s.busy = true) :
    ∃ i, s.activeOp = some i ∧ i ≠ .nop := by
  obtain ⟨i, ha⟩ := Option.isSome_iff_exists.mp (hi.busy_iff_active.symm.trans hb)
  exact ⟨i, ha, fun hnop => hi.active_ne_nop (hnop ▸ ha)⟩

/-- With nothing left in the schedule one step completes the running command (log 3). -/
theorem step_completes_of_unscheduled {s : State} (hi : s.Inv) (hb : s.busy = true) (h : s.turns = []) :
    ∃ t, step s = .next t ∧ t.busy = false := by
  obtain ⟨i, ha, hn⟩ := hi.active_of_busy hb
  obtain ⟨t, ht⟩ := exec_next i s
  refine ⟨t, ?_, (exec_ends hn ht).1⟩
  rw [step_of_unscheduled_busy h hb, engineStep_of_active hb ha, ht]

/-- Settles O56: by induction on the schedule; a step that leaves the command running leaves the invariant and a shorter
schedule. -/
theorem runningCommandEndsInBoundedSteps : Obligations.RunningCommandEndsInBoundedSteps := by
  intro s hi hb
  induction hts : s.turns generalizing s with
  | nil =>
    obtain ⟨t, ht, hidle⟩ := step_completes_of_unscheduled hi hb hts
    exact ⟨1, t, by simp, run_one_of_step ht, hidle⟩
  | cons u us ih =>
    obtain ⟨t, ht⟩ := step_next_of_busy hi hb
    cases hbt : t.busy with
    | false => exact ⟨1, t, by simp, run_one_of_step ht, hbt⟩
    | true =>
      have hus : t.turns = us := by rw [step_turns ht, hts, List.tail]
      obtain ⟨n, t', hn, hrun, hidle⟩ := ih t (everyStepKeepsTheInvariant s t hi ht) hbt hus
      exact ⟨n + 1, t', by simpa using hn, (run_succ_of_step ht n).trans hrun, hidle⟩

end Sys2Proof.Machine
end

section
/-! PROOF. The statements about the turns of the engine, the host and the reset input, and about a placed command word. -/

namespace Sys2Proof.Machine

/-- Settles O4: the engine's turn is ACTIVE_OP's `exec`, each `exec` is `finish` of its pseudocode, and `finish` is one of the
two completions by definition. -/
theorem engineStepCompletesActiveCommand : Obligations.EngineStepCompletesActiveCommand := by
  refine ⟨fun s ts h hb => ?idle, fun s ts i h hb ha => ?active, fun _ => rfl, fun _ => rfl, fun _ => rfl, fun _ => rfl,
    fun _ => rfl, fun _ _ => rfl, fun _ _ _ _ _ _ => rfl⟩
  case idle => rw [step_of_engine h]; exact engineStep_of_idle hb
  case active => rw [step_of_engine h]; exact engineStep_of_active hb ha

/-! ### Polls (R65) -/

/-- The value of a register does not depend on the schedule. -/
@[simp] theorem readValue_turns (r : BusReg) (s : State) (ts : List Turn) :
    readValue r { s with turns := ts } = readValue r s := by cases r <;> rfl

@[simp] theorem readsFree_turns (r : BusReg) (s : State) (ts : List Turn) :
    readsFree r { s with turns := ts } = readsFree r s := by cases r <;> rfl

/-- A legal read that draws nothing, as the read of a poll makes it (R44). -/
theorem busRead_of_not_free {off : Offset} {r : BusReg} {s : State} (ha : off.toNat % 4 = 0)
    (hr : decodeOffset s.nw off = r) (hf : readsFree r s = false) :
    busRead off 4 s = { s with response := .data (readValue r s) } :=
  Host.Outcome.next.inj (busTxn_read_of_not_free ha hr hf)

/-- Settles O5: a transaction is performed on the state it has left the queue of; a poll's read returns the register's
value, and the comparison decides whether the poll stays at the head of the queue. -/
theorem hostTurnPerformsNextOperation : Obligations.HostTurnPerformsNextOperation := by
  refine ⟨fun s ts tx rest h hp hh => ?scheduled, fun s tx rest h hb hp hh => ?unscheduled,
    fun s ts r mask val rest h hp hh hr hf ha => ?poll⟩
  case scheduled => rw [step_of_host h]; exact hostStep_of_bus hp hh
  case unscheduled => rw [step_of_unscheduled_idle h hb]; exact hostStep_of_bus hp hh
  case poll =>
    have hread : busRead (regOffset r) 4 { s with turns := ts } =
        { s with turns := ts, response := .data (readValue r s) } := by
      rw [busRead_of_not_free (s := { s with turns := ts }) ha hr ((readsFree_turns r s ts).trans hf), readValue_turns]
    rw [step_of_host h, hostStep_of_poll (s := { s with turns := ts }) hp hh, hread]
    by_cases hmet : readValue r s &&& mask = val <;> simp [pollMet, hmet]

/-! ### A placed command word (log 5) -/

/-- A row of 32 bits is the word itself. -/
theorem tableWord_toNat (v : Word) : tableWord 32 v.toNat = v := by
  rw [tableWord, Nat.mod_eq_of_lt v.isLt, BitVec.ofNat_toNat, BitVec.setWidth_eq]

/-- A placed running command is run by the engine's turn that was scheduled with it. -/
theorem step_placeRunning (i : Instr) (s : State) :
    step (placeRunning i s) = exec i { commandStart i s with resetPin := false } := by
  rw [step_of_engine (ts := s.turns) rfl]; exact engineStep_of_active rfl rfl

/-- The placed word of NOP is written to CMD of an idle engine, where NOP acts at once. -/
theorem step_placeWrite_nop (s : State) :
    step (placeWrite (encode .nop) s) =
      exec .nop { s with busy := false, activeOp := none, resetPin := false, response := .okay } := by
  rw [step_of_host (ts := s.turns) rfl, hostStep_of_bus (rest := s.host) rfl rfl]
  exact (busTxn_write_cmd _ _).trans (cmdWrite_encode_nop rfl)

/-- Settles O3: the word is its command's encoding, and each command is placed where its own turn runs it. -/
theorem stepRunsThePlacedCommand : Obligations.StepRunsThePlacedCommand := by
  intro s v i h
  obtain rfl := (decode_eq_ok_iff v i).mp h
  rw [State.withFetchWord, tableWord_toNat, placeWord, h]
  cases i with
  | nop => exact step_placeWrite_nop s
  | modexp => exact step_placeRunning .modexp s
  | modmul => exact step_placeRunning .modmul s
  | jacobi => exact step_placeRunning .jacobi s
  | sstrial => exact step_placeRunning .sstrial s
  | sstest => exact step_placeRunning .sstest s

/-! ### The reset input and the abort race -/

/-- Settles O49: both edges are the reset of the registers, whose fields are its own; a host's turn in reset is refused. -/
theorem hardwareResetRestoresResetState : Obligations.HardwareResetRestoresResetState := by
  refine ⟨fun s ts h => ?assert, fun s ts h hp => ?release, fun s => ⟨rfl, rfl, rfl, rfl, wideVal_zeroWords s.nw, rfl⟩,
    fun s ts h hp hh => ?refused⟩
  case assert => rw [step_of_assertReset h]; rfl
  case release => rw [step_of_releaseReset h, releaseReset_of_pin (s := { s with turns := ts }) hp]; rfl
  case refused => rw [step_of_host h]; exact hostStep_of_reset hp hh

/-- The host's turn with the abort line of R66 pending is the CTRL write of 2. -/
theorem step_abortLine {s : State} {ts : List Turn} (h : s.turns = .host :: ts) (hp : s.resetPin = false)
    (hh : s.host = [wr .ctrl 0x00000002#32]) :
    step s = .next (ctrlWrite 0x00000002#32 { s with turns := ts, host := [], response := .okay }) := by
  rw [step_of_host h, hostStep_of_bus (s := { s with turns := ts }) hp hh]
  exact busTxn_write_ctrl _ _

/-- While a command runs the abort line ends it, with IE = 0 (R92). -/
theorem step_abortLine_of_busy {s : State} {ts : List Turn} (h : s.turns = .host :: ts) (hp : s.resetPin = false)
    (hh : s.host = [wr .ctrl 0x00000002#32]) (hb : s.busy = true) :
    step s = .next (errorComplete .aborted { s with turns := ts, host := [], response := .okay, ie := false }) := by
  rw [step_abortLine h hp hh]
  exact congrArg _ (ctrlWrite_of_abort (by decide) (by decide) hb)

/-- On an idle engine the abort line only writes IE = 0 (R91). -/
theorem step_abortLine_of_idle {s : State} {ts : List Turn} (h : s.turns = .host :: ts) (hp : s.resetPin = false)
    (hh : s.host = [wr .ctrl 0x00000002#32]) (hb : s.busy = false) :
    step s = .next { s with turns := ts, host := [], response := .okay, ie := false } := by
  rw [step_abortLine h hp hh]
  exact congrArg _ (ctrlWrite_of_no_action (by decide) (.inr hb))

/-- Settles O46: scheduled first, the abort ends the command and leaves the engine's turn nothing to do; scheduled second, it
finds an idle engine and only writes IE. -/
theorem abortAndCompletionRace : Obligations.AbortAndCompletionRace := by
  intro s i hb ha hn hp hh
  refine ⟨fun hts => ?abortFirst, fun hts => ?completionFirst⟩
  case abortFirst =>
    have hengine := (step_of_engine (s := errorComplete .aborted { s with
      turns := [.engine], host := [], response := .okay, ie := false }) rfl).trans (engineStep_of_idle rfl)
    exact ⟨_, (run_succ_of_step (step_abortLine_of_busy hts hp hh hb) 1).trans (run_one_of_step hengine),
      rfl, rfl, rfl, wideVal_zeroWords s.nw, rfl, rfl⟩
  case completionFirst =>
    obtain ⟨u, hu⟩ := exec_next i { s with turns := [.host] }
    have hcompletion : step s = .next u :=
      ((step_of_engine hts).trans (engineStep_of_active (s := { s with turns := [.host] }) hb ha)).trans hu
    have hframe := exec_frame hu
    have hwrite := step_abortLine_of_idle hframe.turns (hframe.resetPin.trans hp) (hframe.host.trans hh)
      (exec_ends hn hu).1
    exact ⟨u, _, hu, (run_succ_of_step hcompletion 1).trans (run_one_of_step hwrite), rfl⟩

end Sys2Proof.Machine
end

section
/-! PROOF. Modular exponentiation and multiplication in closed form (40_modexp.md R67 to R73). -/

namespace Sys2Proof.Machine

/-! ### The loop of R68 -/

/-- One turn of square-and-multiply keeps the product of the running result and the power still to come, modulo m. -/
theorem modExp_turn_modEq (r b e m : Nat) :
    (if e % 2 = 1 then modMulF r b m else r) * modMulF b b m ^ (e / 2) ≡ r * b ^ e [MOD m] := by
  have hsquare : modMulF b b m ^ (e / 2) ≡ b ^ (2 * (e / 2)) [MOD m] := by
    rw [pow_mul, pow_two]; exact (Nat.mod_modEq (b * b) m).pow (e / 2)
  by_cases hodd : e % 2 = 1
  · have he : b ^ e = b * b ^ (2 * (e / 2)) := by rw [← pow_succ']; congr 1; omega
    rw [if_pos hodd, he, ← mul_assoc]
    exact (Nat.mod_modEq (r * b) m).mul hsquare
  · have he : b ^ e = b ^ (2 * (e / 2)) := by congr 1; omega
    rw [if_neg hodd, he]
    exact hsquare.mul_left r

/-- The loop's invariant, for fuel that covers the bits of the exponent and a running result below the modulus. -/
theorem modExpLoop_eq {k r b e m : Nat} (he : e < 2 ^ k) (hr : r < m) : modExpLoop k r b e m = r * b ^ e % m := by
  induction k generalizing r b e with
  | zero =>
    obtain rfl : e = 0 := by simpa using he
    rw [modExpLoop, pow_zero, mul_one, Nat.mod_eq_of_lt hr]
  | succ k ih =>
    unfold modExpLoop
    by_cases h0 : e = 0
    · rw [if_pos h0, h0, pow_zero, mul_one, Nat.mod_eq_of_lt hr]
    · have hr' : (if e % 2 = 1 then modMulF r b m else r) < m := by
        split
        · exact Nat.mod_lt _ (by omega)
        · exact hr
      rw [if_neg h0, ih (by rw [pow_succ] at he; omega) hr']
      exact modExp_turn_modEq r b e m

/-- Settles O11: the loop starts with the running result 1 mod m and fuel for every bit of the exponent. -/
theorem modExpLoopIsThePower : Obligations.ModExpLoopIsThePower := by
  intro b e m hm
  rw [modExpF, modExpLoop_eq Nat.lt_log2_self (Nat.mod_lt 1 hm), Nat.mod_mul_mod, one_mul]

/-! ### MODEXP and MODMUL (R72, R73) -/

theorem modexpResult_of_ne_zero {m : Nat} (hm : m ≠ 0) (b e : Nat) :
    modexpResult b e m = .complete (b ^ e % m) false .noSymbol .noReason 0 := by
  rw [modexpResult, if_neg hm, modExpLoopIsThePower b e m (Nat.one_le_iff_ne_zero.mpr hm)]

theorem modmulResult_of_ne_zero {m : Nat} (hm : m ≠ 0) (a c : Nat) :
    modmulResult a c m = .complete (a * c % m) false .noSymbol .noReason 0 := by
  rw [modmulResult, if_neg hm, modMulF]

@[simp] theorem modexpResult_zero (b e : Nat) : modexpResult b e 0 = .raise .invalidModulus := rfl

@[simp] theorem modmulResult_zero (a c : Nat) : modmulResult a c 0 = .raise .invalidModulus := rfl

theorem exec_modexp_of_ne_zero {s : State} (hn : opN s ≠ 0) :
    exec .modexp s = .next (complete (opA s ^ opB s % opN s) false .noSymbol .noReason 0 s) := by
  rw [exec, execModexp, modexpResult_of_ne_zero hn]; rfl

theorem exec_modmul_of_ne_zero {s : State} (hn : opN s ≠ 0) :
    exec .modmul s = .next (complete (opA s * opB s % opN s) false .noSymbol .noReason 0 s) := by
  rw [exec, execModmul, modmulResult_of_ne_zero hn]; rfl

/-- Settles O12: both branches of MODEXP's pseudocode, with its loop in closed form. -/
theorem modexpWritesThePower : Obligations.ModexpWritesThePower := by
  refine fun s => ⟨exec_modexp_of_ne_zero, fun hn => ?_⟩
  rw [exec, execModexp, hn, modexpResult_zero]; rfl

/-- Settles O13: both branches of MODMUL's pseudocode. -/
theorem modmulWritesTheProduct : Obligations.ModmulWritesTheProduct := by
  refine fun s => ⟨exec_modmul_of_ne_zero, fun hn => ?_⟩
  rw [exec, execModmul, hn, modmulResult_zero]; rfl

/-- A value below OPN fits into RES (R70). -/
theorem wideVal_wideOfNat_of_lt_opN {s : State} (hw : s.WidthOk) {x : Nat} (hx : x < opN s) :
    wideVal (wideOfNat s.nw x) = x := by
  have hlt : opN s < 2 ^ (32 * s.nw) := by rw [← hw.opn]; exact wideVal_lt s.opn
  exact wideVal_wideOfNat (hx.trans hlt)

/-- Settles O14: a remainder is below OPN, and OPN below 2^W. -/
theorem resHoldsTheExactResult : Obligations.ResHoldsTheExactResult := by
  intro s hw hn
  have hexact (x : Nat) : wideVal (wideOfNat s.nw (x % opN s)) = x % opN s :=
    wideVal_wideOfNat_of_lt_opN hw (Nat.mod_lt x (Nat.pos_of_ne_zero hn))
  have hbelow (x : Nat) : wideVal (wideOfNat s.nw (x % opN s)) < opN s :=
    (hexact x).trans_lt (Nat.mod_lt x (Nat.pos_of_ne_zero hn))
  exact ⟨⟨_, exec_modexp_of_ne_zero hn, hexact _, hbelow _⟩, ⟨_, exec_modmul_of_ne_zero hn, hexact _, hbelow _⟩⟩

end Sys2Proof.Machine
end

section
/-! PROOF. JacobiF is the Jacobi symbol of number theory (41_jacobi.md R75 to R80). -/

namespace Sys2Proof.Machine

/-! ### The loops of R76 -/

/-- The inner loop, with fuel for every bit of `a`: it answers an odd number no larger than `a`, and each halving flips the
sign as the symbol of 2 asks. -/
theorem stripTwos_spec {k a n : Nat} {s : Int} (ha : a ≠ 0) (hk : a < 2 ^ (k + 1)) (hn : n % 2 = 1) :
    (stripTwos k a n s).1 % 2 = 1 ∧ (stripTwos k a n s).1 ≤ a ∧
      (stripTwos k a n s).2 * jacobiSym (stripTwos k a n s).1 n = s * jacobiSym a n := by
  induction k generalizing a s with
  | zero =>
    have ha2 : a < 2 := hk
    exact ⟨show a % 2 = 1 by omega, le_refl a, rfl⟩
  | succ k ih =>
    unfold stripTwos
    by_cases heven : a % 2 = 0
    · rw [if_pos heven]
      have hhalf : a / 2 < 2 ^ (k + 1) := by rw [pow_succ] at hk; omega
      obtain ⟨hodd, hle, hsym⟩ := ih (a := a / 2) (s := if n % 8 = 3 ∨ n % 8 = 5 then -s else s) (by omega) hhalf
      refine ⟨hodd, by omega, hsym.trans ?_⟩
      rw [← jacobiSym.even_odd (a := a) (by exact_mod_cast heven) hn]
      push_cast
      split <;> ring
    · rw [if_neg heven]
      exact ⟨show a % 2 = 1 by omega, le_refl a, rfl⟩

/-- The swap of the outer loop, by quadratic reciprocity and reduction. -/
theorem reciprocityFlip_mul_jacobiSym {o n : Nat} (ho : o % 2 = 1) (hn : n % 2 = 1) (s : Int) :
    reciprocityFlip o n s * jacobiSym (n % o : Nat) o = s * jacobiSym o n := by
  have hmod : jacobiSym (n % o : Nat) o = jacobiSym n o := by
    rw [Int.natCast_mod, ← jacobiSym.mod_left]
  rw [hmod, ← jacobiSym.quadratic_reciprocity_if ho hn, reciprocityFlip]
  split <;> ring

/-- A swap at least halves the product of the pair. -/
theorem mod_mul_lt_of_mul_lt {a n o p : Nat} (ho : 0 < o) (hoa : o ≤ a) (han : a < n) (h : a * n < 2 * p) :
    n % o * o < p := by
  have hdiv : o * (n / o) + n % o = n := Nat.div_add_mod n o
  have hmod : n % o < o := Nat.mod_lt n ho
  have hquot : o ≤ o * (n / o) := Nat.le_mul_of_pos_right o (Nat.div_pos (by omega) ho)
  have hhalf : 2 * (n % o) ≤ n := by omega
  nlinarith [Nat.mul_le_mul hhalf hoa]

/-- At the end of the outer loop `a` is 0 and the answer is the sign for n = 1 and 0 otherwise. -/
theorem sign_of_zero_left {n : Nat} (hn : n % 2 = 1) (s : Int) :
    (if n = 1 then s else 0) = s * jacobiSym (0 : Nat) n := by
  by_cases h1 : n = 1
  · rw [if_pos h1, h1, jacobiSym.one_right, mul_one]
  · rw [if_neg h1, Int.ofNat_zero, jacobiSym.zero_left (by omega), mul_zero]

/-- The outer loop, with fuel for every halving of the product: its answer is the sign times the symbol. -/
theorem jacobiLoop_eq {k a n : Nat} {s : Int} (hn : n % 2 = 1) (han : a < n) (hk : a * n < 2 ^ k) :
    jacobiLoop k a n s = s * jacobiSym a n := by
  induction k generalizing a n s with
  | zero =>
    obtain rfl : a = 0 := by
      have : a * n = 0 := by simpa using hk
      rcases Nat.mul_eq_zero.mp this with h | h <;> omega
    exact sign_of_zero_left hn s
  | succ k ih =>
    unfold jacobiLoop
    by_cases h0 : a = 0
    · rw [if_pos h0, h0]; exact sign_of_zero_left hn s
    · obtain ⟨hodd, hle, hsym⟩ := stripTwos_spec (s := s) h0 Nat.lt_log2_self hn
      have hpos : 0 < (stripTwos a.log2 a n s).1 := by omega
      simp only [if_neg h0]
      rw [ih hodd (Nat.mod_lt _ hpos) (mod_mul_lt_of_mul_lt hpos hle han (by rwa [pow_succ'] at hk)),
        reciprocityFlip_mul_jacobiSym hodd hn, hsym]

/-- Settles O15: the loop starts with a reduced `a`, the sign 1 and fuel for n * n. -/
theorem jacobiLoopIsTheJacobiSymbol : Obligations.JacobiLoopIsTheJacobiSymbol := by
  intro a n hn
  have hlt : a % n < n := Nat.mod_lt a (by omega)
  have hfuel : a % n * n < 2 ^ (2 * (n.log2 + 1)) := by
    have hbits : n < 2 ^ (n.log2 + 1) := Nat.lt_log2_self
    rw [two_mul, pow_add]
    exact Nat.mul_lt_mul_of_lt_of_lt (hlt.trans hbits) hbits
  rw [jacobiF, jacobiLoop_eq hn hlt hfuel, one_mul, Int.natCast_mod, ← jacobiSym.mod_left]

/-- Settles O16: by the same facts of the Jacobi symbol. -/
theorem jacobiIsZeroExactlyWhenNotCoprime : Obligations.JacobiIsZeroExactlyWhenNotCoprime := by
  intro a n hn
  have : NeZero n := ⟨by omega⟩
  rw [jacobiLoopIsTheJacobiSymbol a n hn, gcdF, ← Int.gcd_natCast_natCast]
  exact ⟨jacobiSym.eq_zero_iff_not_coprime, jacobiSym.eq_one_or_neg_one⟩

/-- Settles O19: the symbol of 1 is 1 for every odd n; the other values are computed. -/
theorem jacobiKnownValues : Obligations.JacobiKnownValues := by
  have hone (n : Nat) (hn : n % 2 = 1) : jacobiF 1 n = 1 := by
    rw [jacobiLoopIsTheJacobiSymbol 1 n hn, Int.natCast_one, jacobiSym.one_left]
  exact ⟨hone, by decide, by decide, by rw [hone 1 rfl, mapJ_one]⟩

/-! ### JACOBI (R79, R99) -/

theorem exec_jacobi (s : State) : exec .jacobi s = .next (finish (jacobiResult (opA s) (opN s)) s) := rfl

@[simp] theorem jacobiResult_zero (a : Nat) : jacobiResult a 0 = .raise .invalidModulus := rfl

theorem jacobiResult_of_even {n : Nat} (h0 : n ≠ 0) (heven : n % 2 = 0) (a : Nat) :
    jacobiResult a n = .raise .evenModulus := by rw [jacobiResult, if_neg h0, if_pos heven]

theorem jacobiResult_of_not_coprime {a n : Nat} (hodd : n % 2 = 1) (hg : Nat.gcd a n ≠ 1) :
    jacobiResult a n = .raise .jacobiUndefined := by
  rw [jacobiResult, gcdF, if_neg (by omega), if_neg (by omega), if_pos hg]

theorem jacobiResult_of_coprime {a n : Nat} (hodd : n % 2 = 1) (hg : Nat.gcd a n = 1) :
    jacobiResult a n = .complete (mapJ (jacobiF a n) n) false (encJ (jacobiF a n)) .noReason 0 := by
  rw [jacobiResult, gcdF, if_neg (by omega), if_neg (by omega), if_neg (not_not.mpr hg)]

/-- A symbol other than 0 tells that the gcd is 1. -/
theorem coprime_of_jacobiSym_ne_zero {a n : Nat} (hodd : n % 2 = 1) (h : jacobiSym a n ≠ 0) : Nat.gcd a n = 1 := by
  by_contra hg
  rw [← jacobiLoopIsTheJacobiSymbol a n hodd] at h
  exact h ((jacobiIsZeroExactlyWhenNotCoprime a n hodd).1.mpr hg)

/-- Settles O18: the branches of JACOBI's pseudocode in their order, with the symbol as number theory's. -/
theorem jacobiWritesTheSymbol : Obligations.JacobiWritesTheSymbol := by
  intro s
  rw [exec_jacobi]
  refine ⟨fun h0 => ?zero, fun h0 heven => ?even, fun hodd hg => ?notCoprime, fun hodd hj => ?plus,
    fun hodd hj => ?minus⟩
  case zero => rw [h0, jacobiResult_zero]; rfl
  case even => rw [jacobiResult_of_even h0 heven]; rfl
  case notCoprime => rw [jacobiResult_of_not_coprime hodd hg]; rfl
  case plus =>
    have hg := coprime_of_jacobiSym_ne_zero hodd (by rw [hj]; decide)
    rw [jacobiResult_of_coprime hodd hg, jacobiLoopIsTheJacobiSymbol _ _ hodd, hj, mapJ_one, encJ_one]; rfl
  case minus =>
    have hg := coprime_of_jacobiSym_ne_zero hodd (by rw [hj]; decide)
    rw [jacobiResult_of_coprime hodd hg, jacobiLoopIsTheJacobiSymbol _ _ hodd, hj, mapJ_neg_one, encJ_neg_one]; rfl

end Sys2Proof.Machine
end

section
/-! PROOF. The Solovay-Strassen test: candidates, trials, SSTRIAL and SSTEST (42_primality.md R81 to R87). -/

namespace Sys2Proof.Machine

/-! ### Candidates (R81) -/

theorem precheck_of_rejected {p : Nat} (h : p < 2 ∨ (p % 2 = 0 ∧ p ≠ 2)) : precheck p = .rejected := if_pos h

@[simp] theorem precheck_two : precheck 2 = .trivial := rfl

theorem precheck_of_odd {p : Nat} (hodd : p % 2 = 1) (h3 : 3 ≤ p) : precheck p = .run := by
  rw [precheck, if_neg (by omega), if_neg (by omega)]

/-- The three classes of candidates cover every number. -/
theorem candidate_cases (p : Nat) : (p < 2 ∨ (p % 2 = 0 ∧ p ≠ 2)) ∨ p = 2 ∨ (p % 2 = 1 ∧ 3 ≤ p) := by omega

/-- Settles O20: the classes cover every candidate and exclude each other, and Precheck answers each class by its name. -/
theorem precheckClassifiesCandidates : Obligations.PrecheckClassifiesCandidates := by
  intro p
  rcases candidate_cases p with h | rfl | ⟨hodd, h3⟩
  · rw [precheck_of_rejected h]
    exact ⟨iff_of_true rfl h, iff_of_false (by decide) (by omega), iff_of_false (by decide) (by omega)⟩
  · simp
  · rw [precheck_of_odd hodd h3]
    exact ⟨iff_of_false (by decide) (by omega), iff_of_false (by decide) (by omega), iff_of_true rfl ⟨hodd, h3⟩⟩

/-! ### Trials (R82) -/

theorem trialF_of_not_coprime {p a : Nat} (hg : Nat.gcd a p ≠ 1) : trialF p a = .undefinedSymbol := by
  rw [trialF, gcdF, if_pos hg]

/-- With a symbol a trial compares it, mapped, with the power. -/
theorem trialF_of_coprime {p a : Nat} (hp : 1 ≤ p) (hg : Nat.gcd a p = 1) :
    trialF p a = if mapJ (jacobiF a p) p = a ^ ((p - 1) / 2) % p then .pass (jacobiF a p) (a ^ ((p - 1) / 2) % p)
      else .mismatch (jacobiF a p) (a ^ ((p - 1) / 2) % p) := by
  rw [trialF, gcdF, if_neg (not_not.mpr hg), modExpLoopIsThePower _ _ p hp]

/-- Settles O21: a trial's branches, with the power in closed form. -/
theorem trialComparesSymbolWithPower : Obligations.TrialComparesSymbolWithPower := by
  intro p a _ h3 _ _
  refine ⟨trialF_of_not_coprime, fun hg hpass => ?_, fun hg hmismatch => ?_⟩
  · rw [trialF_of_coprime (by omega) hg, if_pos hpass]
  · rw [trialF_of_coprime (by omega) hg, if_neg hmismatch]

/-- Whether a trial passes, without naming what it reports. -/
theorem trialPasses_iff {p a : Nat} (hp : 1 ≤ p) :
    trialPasses p a = true ↔ Nat.gcd a p = 1 ∧ mapJ (jacobiF a p) p = a ^ ((p - 1) / 2) % p := by
  by_cases hg : Nat.gcd a p = 1
  · rw [trialPasses, trialF_of_coprime hp hg]
    by_cases hx : mapJ (jacobiF a p) p = a ^ ((p - 1) / 2) % p <;> simp [hg, hx]
  · rw [trialPasses, trialF_of_not_coprime hg]; simp [hg]

theorem exists_pass_of_trialPasses {p a : Nat} (h : trialPasses p a = true) : ∃ j x, trialF p a = .pass j x := by
  rw [trialPasses] at h
  cases ht : trialF p a with
  | undefinedSymbol => rw [ht] at h; cases h
  | mismatch j x => rw [ht] at h; cases h
  | pass j x => exact ⟨j, x, rfl⟩

/-! ### SSTRIAL (R83) -/

theorem exec_sstrial (s : State) : exec .sstrial s = .next (finish (sstrialResult (opN s) (opA s)) s) := rfl

theorem sstrialResult_of_rejected {p : Nat} (h : p < 2 ∨ (p % 2 = 0 ∧ p ≠ 2)) (a : Nat) :
    sstrialResult p a = rejectedResult := by rw [sstrialResult, precheck_of_rejected h]

@[simp] theorem sstrialResult_two (a : Nat) : sstrialResult 2 a = trivialResult := rfl

/-- A candidate that runs: the witness's range is checked before the trial (R99). -/
theorem sstrialResult_of_odd {p : Nat} (hodd : p % 2 = 1) (h3 : 3 ≤ p) (a : Nat) :
    sstrialResult p a = if a = 0 ∨ a > p - 1 then .raise .witnessRange else sstrialOutcome (trialF p a) := by
  rw [sstrialResult, precheck_of_odd hodd h3]

/-- Settles O22: the branches of SSTRIAL's pseudocode, with the trial's own. -/
theorem sstrialReportsItsTrial : Obligations.SstrialReportsItsTrial := by
  intro s
  rw [exec_sstrial]
  refine ⟨fun h => ?rejected, fun h2 => ?trivial, fun hodd h3 hrange => ?range, fun hodd h3 h1 hle hg => ?noSymbol,
    fun hodd h3 h1 hle hg => ?symbol⟩
  case rejected => rw [sstrialResult_of_rejected h]; rfl
  case trivial => rw [h2, sstrialResult_two]; rfl
  case range => rw [sstrialResult_of_odd hodd h3, if_pos hrange]; rfl
  case noSymbol => rw [sstrialResult_of_odd hodd h3, if_neg (by omega), trialF_of_not_coprime hg]; rfl
  case symbol =>
    rw [sstrialResult_of_odd hodd h3, if_neg (by omega), trialF_of_coprime (by omega) hg]
    split <;> rfl

/-! ### Draws (R84, log 7) -/

/-- Settles O23: a draw is 1 and a remainder below p - 1, and a witness less 1 is its own remainder. -/
theorem drawnWitnessIsAnyValueInRange : Obligations.DrawnWitnessIsAnyValueInRange := by
  refine ⟨fun source p c hp => ?inRange, fun witnesses p hw => ⟨fun c => witnesses c - 1, fun c => ?drawn⟩⟩
  case inRange =>
    have hlt : source c % (p - 1) < p - 1 := Nat.mod_lt _ (by omega)
    unfold drawWitness; omega
  case drawn =>
    obtain ⟨h1, hle⟩ := hw c
    rw [drawWitness, Nat.mod_eq_of_lt (by omega)]; omega

/-! ### The loop of SSTEST (R84) -/

/-- A passing trial goes on with the next one. -/
theorem sstestLoop_of_pass {source : Nat → Nat} {p c : Nat} (h : trialPasses p (drawWitness source p c) = true)
    (k t last : Nat) :
    sstestLoop source p (k + 1) c t last = sstestLoop source p k (c + 1) (t + 1) (drawWitness source p c) := by
  obtain ⟨j, x, hpass⟩ := exists_pass_of_trialPasses h
  rw [sstestLoop, hpass]

/-- A failing trial ends the loop with its witness and its reason. -/
theorem sstestLoop_of_fail {source : Nat → Nat} {p c : Nat} (hp : 1 ≤ p)
    (h : trialPasses p (drawWitness source p c) = false) (k t last : Nat) :
    sstestLoop source p (k + 1) c t last =
      (.complete (drawWitness source p c) false .noSymbol
        (if Nat.gcd (drawWitness source p c) p ≠ 1 then .jacobiUndefined else .mismatch) t, c + 1) := by
  by_cases hg : Nat.gcd (drawWitness source p c) p = 1
  · have hx : mapJ (jacobiF (drawWitness source p c) p) p ≠ drawWitness source p c ^ ((p - 1) / 2) % p := fun hx => by
      rw [(trialPasses_iff hp).mpr ⟨hg, hx⟩] at h; cases h
    rw [sstestLoop, trialF_of_coprime hp hg, if_neg hx, if_neg (not_not.mpr hg)]
  · rw [sstestLoop, trialF_of_not_coprime hg, if_pos hg]

/-- m passing trials, and the loop goes on from there; `last` is then the last of their witnesses. -/
theorem sstestLoop_of_passes {source : Nat → Nat} {p m c : Nat}
    (h : ∀ j < m, trialPasses p (drawWitness source p (c + j)) = true) (k t last : Nat) :
    sstestLoop source p (m + k) c t last =
      sstestLoop source p k (c + m) (t + m) (if m = 0 then last else drawWitness source p (c + (m - 1))) := by
  induction m generalizing k with
  | zero => simp
  | succ m ih =>
    have hpass : trialPasses p (drawWitness source p (c + m)) = true := h m (Nat.lt_succ_self m)
    rw [Nat.succ_add_eq_add_succ, ih (fun j hj => h j (Nat.lt_succ_of_lt hj)), sstestLoop_of_pass hpass]
    rfl

theorem sstestResult_of_odd {p : Nat} (hodd : p % 2 = 1) (h3 : 3 ≤ p) (source : Nat → Nat) (k c : Nat) :
    sstestResult source p k c = sstestLoop source p k c 0 0 := by rw [sstestResult, precheck_of_odd hodd h3]

theorem sstestResult_of_all_pass {source : Nat → Nat} {p k c : Nat} (hodd : p % 2 = 1) (h3 : 3 ≤ p)
    (h : ∀ j < k, trialPasses p (drawWitness source p (c + j)) = true) :
    sstestResult source p k c =
      (.complete (if k = 0 then 0 else drawWitness source p (c + (k - 1))) true .noSymbol .passed k, c + k) := by
  rw [sstestResult_of_odd hodd h3, ← Nat.add_zero k, sstestLoop_of_passes h, sstestLoop, Nat.zero_add]; rfl

theorem sstestResult_of_first_fail {source : Nat → Nat} {p k c m : Nat} (hodd : p % 2 = 1) (h3 : 3 ≤ p) (hm : m < k)
    (h : ∀ j < m, trialPasses p (drawWitness source p (c + j)) = true)
    (hfail : trialPasses p (drawWitness source p (c + m)) = false) :
    sstestResult source p k c =
      (.complete (drawWitness source p (c + m)) false .noSymbol
        (if Nat.gcd (drawWitness source p (c + m)) p ≠ 1 then .jacobiUndefined else .mismatch) m, c + m + 1) := by
  obtain ⟨l, rfl⟩ : ∃ l, k = m + (l + 1) := ⟨k - m - 1, by omega⟩
  rw [sstestResult_of_odd hodd h3, sstestLoop_of_passes h, sstestLoop_of_fail (by omega) hfail, Nat.zero_add]

/-- Settles O25: the passing trials are run through, and then the loop is over or its next trial fails. -/
theorem sstestStopsAtFirstFailingTrial : Obligations.SstestStopsAtFirstFailingTrial :=
  fun _ _ _ _ hodd h3 => ⟨sstestResult_of_all_pass hodd h3, fun _ => sstestResult_of_first_fail hodd h3⟩

/-- All of k trials pass, or there is a first that fails. -/
theorem all_pass_or_first_fail (pass : Nat → Bool) (k : Nat) :
    (∀ j < k, pass j = true) ∨ ∃ m < k, (∀ j < m, pass j = true) ∧ pass m = false := by
  by_cases h : ∃ m, m < k ∧ pass m = false
  · obtain ⟨hlt, hfail⟩ := Nat.find_spec h
    refine .inr ⟨Nat.find h, hlt, fun j hj => ?_, hfail⟩
    have hmin := Nat.find_min h hj
    simpa [hj.trans hlt] using hmin
  · exact .inl fun j hj => by simpa using fun hfail => h ⟨j, hj, hfail⟩

/-! ### SSTEST (R84 to R86) -/

/-- The witness of trial j of an SSTEST started in `s`, and whether its trial passes. -/
def State.trialPasses (s : State) (j : Nat) : Bool :=
  Machine.trialPasses (opN s) (drawWitness Config.witness (opN s) (s.draws + j))

theorem exec_sstest_of_rejected {s : State} (h : opN s < 2 ∨ (opN s % 2 = 0 ∧ opN s ≠ 2)) :
    exec .sstest s = .next (complete 0 false .noSymbol .rejected 0 s) := by
  rw [exec, execSstest, sstestResult, precheck_of_rejected h]; rfl

theorem exec_sstest_of_two {s : State} (h : opN s = 2) :
    exec .sstest s = .next (complete 0 true .noSymbol .trivial 0 s) := by
  rw [exec, execSstest, h, sstestResult, precheck_two]; rfl

/-- SSTEST of a candidate all of whose witnesses pass. -/
theorem exec_sstest_of_all_pass {s : State} (hodd : opN s % 2 = 1) (h3 : 3 ≤ opN s)
    (h : ∀ j < s.iter.toNat, s.trialPasses j = true) :
    exec .sstest s = .next (complete
      (if s.iter.toNat = 0 then 0 else drawWitness Config.witness (opN s) (s.draws + (s.iter.toNat - 1)))
      true .noSymbol .passed s.iter.toNat { s with draws := s.draws + s.iter.toNat }) := by
  rw [exec, execSstest, sstestResult_of_all_pass hodd h3 h]; rfl

/-- SSTEST of a candidate whose witness m is the first to fail. -/
theorem exec_sstest_of_first_fail {s : State} {m : Nat} (hodd : opN s % 2 = 1) (h3 : 3 ≤ opN s)
    (hm : m < s.iter.toNat) (h : ∀ j < m, s.trialPasses j = true) (hfail : s.trialPasses m = false) :
    ∃ r rs, exec .sstest s = .next (complete r false .noSymbol rs m { s with draws := s.draws + m + 1 }) := by
  rw [exec, execSstest, sstestResult_of_first_fail hodd h3 hm h hfail]; exact ⟨_, _, rfl⟩

/-- Settles O24: without a trial the draws are as before. -/
theorem sstestWithoutTrials : Obligations.SstestWithoutTrials := by
  refine fun s => ⟨exec_sstest_of_rejected, exec_sstest_of_two, fun hodd h3 hiter => ?_⟩
  have h0 : s.iter.toNat = 0 := by rw [hiter]; rfl
  rw [exec_sstest_of_all_pass hodd h3 (by omega), h0]; rfl

/-- Settles O26: either every drawn witness passes, or a first one fails before ITER trials. -/
theorem sstestVerdictIsThatOfItsWitnesses : Obligations.SstestVerdictIsThatOfItsWitnesses := by
  intro s hodd h3
  rcases all_pass_or_first_fail s.trialPasses s.iter.toNat with hall | ⟨m, hm, hpass, hfail⟩
  · refine ⟨_, exec_sstest_of_all_pass hodd h3 hall, rfl, ?_, fun _ => hall, fun _ => rfl⟩
    simp
  · obtain ⟨r, rs, he⟩ := exec_sstest_of_first_fail hodd h3 hm hpass hfail
    refine ⟨_, he, rfl, ?_, fun hverdict => absurd hverdict (by simp), fun hall => ?_⟩
    · rw [complete_tdone, BitVec.toNat_ofNat]; exact (Nat.mod_le _ _).trans hm.le
    · exact absurd (hall m hm) (ne_true_of_eq_false hfail)

/-! ### Primes (R85, GK2) -/

/-- The mapped symbol is the symbol modulo p. -/
theorem mapJ_cast {p : Nat} (hp : 1 ≤ p) {j : Int} (hj : j = 1 ∨ j = -1) : ((mapJ j p : Nat) : ZMod p) = j := by
  rcases hj with rfl | rfl
  · simp
  · simp [Nat.cast_sub hp]

theorem mapJ_lt {p : Nat} (hp : 1 ≤ p) {j : Int} (hj : j = 1 ∨ j = -1) : mapJ j p < p := by
  rcases hj with rfl | rfl
  · exact Nat.mod_lt 1 hp
  · exact Nat.sub_lt hp Nat.one_pos

/-- Euler's criterion, for the mapped symbol. -/
theorem mapJ_jacobiF_of_prime {p a : Nat} (hp : p.Prime) (hodd : p % 2 = 1) (hg : Nat.gcd a p = 1) :
    mapJ (jacobiF a p) p = a ^ ((p - 1) / 2) % p := by
  have : Fact p.Prime := ⟨hp⟩
  have hj := (jacobiIsZeroExactlyWhenNotCoprime a p hodd).2 hg
  have hsym : jacobiF a p = legendreSym p a := by
    rw [jacobiLoopIsTheJacobiSymbol a p hodd, jacobiSym.legendreSym.to_jacobiSym]
  have hcast : ((mapJ (jacobiF a p) p : Nat) : ZMod p) = (a ^ ((p - 1) / 2) : Nat) := by
    rw [mapJ_cast hp.one_le hj, hsym, legendreSym.eq_pow, show (p - 1) / 2 = p / 2 by omega]
    push_cast; rfl
  rw [← Nat.mod_eq_of_lt (mapJ_lt hp.one_le hj)]
  exact (ZMod.natCast_eq_natCast_iff' _ _ p).mp hcast

theorem trialPasses_of_prime {p a : Nat} (hp : p.Prime) (hodd : p % 2 = 1) (h1 : 1 ≤ a) (hle : a ≤ p - 1) :
    trialPasses p a = true := by
  have hlt : a < p := by have := hp.one_le; omega
  have hg : Nat.gcd a p = 1 := (Nat.coprime_of_lt_prime (by omega) hlt hp).symm
  exact (trialPasses_iff hp.one_le).mpr ⟨hg, mapJ_jacobiF_of_prime hp hodd hg⟩

/-- Settles O27: every drawn witness is in range, so every trial of an odd prime passes. -/
theorem primesPassEveryTrial : Obligations.PrimesPassEveryTrial := by
  have odd_of_prime {p : Nat} (hp : p.Prime) (h2 : p ≠ 2) : p % 2 = 1 := hp.eq_two_or_odd.resolve_left h2
  refine ⟨fun p a hp h2 => trialPasses_of_prime hp (odd_of_prime hp h2), fun s hp h2 => ?odd, fun s h2 => ?two⟩
  case odd =>
    have h3 : 3 ≤ opN s := by have := hp.two_le; omega
    have hall : ∀ j < s.iter.toNat, s.trialPasses j = true := fun j _ => by
      obtain ⟨h1, hle⟩ := drawnWitnessIsAnyValueInRange.1 Config.witness (opN s) (s.draws + j) hp.two_le
      exact trialPasses_of_prime hp (odd_of_prime hp h2) h1 hle
    exact ⟨_, exec_sstest_of_all_pass (odd_of_prime hp h2) h3 hall, rfl, rfl, by simp, rfl⟩
  case two => exact ⟨_, exec_sstest_of_two h2, rfl, rfl⟩

end Sys2Proof.Machine
end

section
/-! PROOF. Every command: completion, frame, errors and the operands it reads (30_encoding.md R63, 60_exceptions.md R96 to R99). -/

namespace Sys2Proof.Machine

/-! ### Completion (R96) -/

/-- A completion writes every field the start of a command wrote. -/
theorem finish_commandStart (c : CmdResult) (i : Instr) (s : State) (d : Nat) :
    finish c { commandStart i s with draws := d } = finish c { s with draws := d } := by cases c <;> rfl

theorem resultOf_commandStart (i j : Instr) (s : State) : resultOf i (commandStart j s) = resultOf i s := by
  cases i <;> rfl

/-- Settles O28: a command is one completion, whose outcome reads nothing the start writes. -/
theorem everyCommandCompletes : Obligations.EveryCommandCompletes := by
  intro i s hn
  obtain ⟨t, ht⟩ := exec_next i s
  obtain ⟨hidle, hdone, hactive⟩ := exec_ends hn ht
  refine ⟨⟨t, ht, hdone, hidle, hactive⟩, ?_⟩
  rw [exec_eq_finish hn, exec_eq_finish hn, resultOf_commandStart, finish_commandStart]

/-! ### Frame (R19, R89) -/

theorem sstestLoop_draws_le (source : Nat → Nat) (p k c t last : Nat) :
    c ≤ (sstestLoop source p k c t last).2 := by
  induction k generalizing c t last with
  | zero => exact le_refl c
  | succ k ih =>
    unfold sstestLoop
    split
    · exact Nat.le_succ c
    · exact Nat.le_succ c
    · exact (Nat.le_succ c).trans (ih _ _ _)

theorem sstestResult_draws_le (source : Nat → Nat) (p k c : Nat) : c ≤ (sstestResult source p k c).2 := by
  unfold sstestResult
  split
  · exact le_refl c
  · exact le_refl c
  · exact sstestLoop_draws_le source p k c 0 0

theorem resultOf_draws_of_ne_sstest {i : Instr} (h : i ≠ .sstest) (s : State) : (resultOf i s).2 = s.draws := by
  cases i with
  | sstest => exact absurd rfl h
  | _ => rfl

theorem resultOf_draws_le (i : Instr) (s : State) : s.draws ≤ (resultOf i s).2 := by
  by_cases h : i = .sstest
  · subst h; exact sstestResult_draws_le _ _ _ _
  · exact (resultOf_draws_of_ne_sstest h s).ge

/-- The draws after a command are those its outcome counts; NOP draws nothing. -/
theorem exec_draws {i : Instr} {s t : State} (h : exec i s = .next t) : t.draws = (resultOf i s).2 := by
  by_cases hn : i = .nop
  · subst hn; rw [exec_nop] at h; cases h; rfl
  · rw [exec_eq_finish hn] at h; cases h; exact finish_draws _ _

/-- Settles O29: the frame of a completion, the draws its outcome counts, and NOP's two writes. -/
theorem commandsLeaveTheRest : Obligations.CommandsLeaveTheRest := by
  intro i s t h
  refine ⟨exec_frame h, fun hne => ?draws, ?drawsLe, fun hnop => ?nop⟩
  case draws => rw [exec_draws h, resultOf_draws_of_ne_sstest hne]
  case drawsLe => rw [exec_draws h]; exact resultOf_draws_le i s
  case nop => subst hnop; rw [exec_nop] at h; cases h; exact ⟨rfl, rfl, rfl, rfl, rfl, rfl, rfl⟩

/-! ### Errors (R98, R99) -/

/-- The ERR code an outcome leaves. -/
def CmdResult.err : CmdResult → ErrCode
  | .complete _ _ _ _ _ => .noError
  | .raise code => code

@[simp] theorem finish_err (c : CmdResult) (s : State) : (finish c s).err = c.err := by cases c <;> rfl

theorem modexpResult_err (b e m : Nat) :
    (modexpResult b e m).err = if m = 0 then .invalidModulus else .noError := by unfold modexpResult; split <;> rfl

theorem modmulResult_err (a c m : Nat) :
    (modmulResult a c m).err = if m = 0 then .invalidModulus else .noError := by unfold modmulResult; split <;> rfl

theorem jacobiResult_err (a n : Nat) :
    (jacobiResult a n).err =
      if n = 0 then .invalidModulus else if n % 2 = 0 then .evenModulus
      else if Nat.gcd a n ≠ 1 then .jacobiUndefined else .noError := by
  unfold jacobiResult gcdF; split_ifs <;> rfl

theorem sstrialOutcome_err (t : Trial) : (sstrialOutcome t).err = .noError := by cases t <;> rfl

theorem sstrialResult_err (p a : Nat) :
    (sstrialResult p a).err =
      if p % 2 = 1 ∧ 3 ≤ p ∧ (a = 0 ∨ a > p - 1) then .witnessRange else .noError := by
  rcases candidate_cases p with h | rfl | ⟨hodd, h3⟩
  · rw [sstrialResult_of_rejected h, if_neg (by omega)]; rfl
  · rfl
  · rw [sstrialResult_of_odd hodd h3]
    by_cases hrange : a = 0 ∨ a > p - 1
    · rw [if_pos hrange, if_pos ⟨hodd, h3, hrange⟩]; rfl
    · rw [if_neg hrange, if_neg (by omega), sstrialOutcome_err]

theorem sstestLoop_err (source : Nat → Nat) (p k c t last : Nat) :
    (sstestLoop source p k c t last).1.err = .noError := by
  induction k generalizing c t last with
  | zero => rfl
  | succ k ih =>
    unfold sstestLoop
    split
    · rfl
    · rfl
    · exact ih _ _ _

theorem sstestResult_err (source : Nat → Nat) (p k c : Nat) : (sstestResult source p k c).1.err = .noError := by
  unfold sstestResult
  split
  · rfl
  · rfl
  · exact sstestLoop_err source p k c 0 0

/-- The ERR code after a command with a busy phase is its outcome's. -/
theorem exec_err {i : Instr} (hn : i ≠ .nop) {s t : State} (h : exec i s = .next t) : t.err = (resultOf i s).1.err := by
  rw [exec_eq_finish hn] at h; cases h
  exact finish_err _ _

/-- Settles O30: command by command, from the code its outcome leaves. -/
theorem errorsHaveExactlyTheirCauses : Obligations.ErrorsHaveExactlyTheirCauses := by
  intro i s t h
  cases i with
  | nop => rw [exec_nop] at h; cases h; simp
  | modexp =>
    rw [exec_err (by decide) h, resultOf, modexpResult_err]
    by_cases h0 : opN s = 0 <;> simp [h0]
  | modmul =>
    rw [exec_err (by decide) h, resultOf, modmulResult_err]
    by_cases h0 : opN s = 0 <;> simp [h0]
  | jacobi =>
    rw [exec_err (by decide) h, resultOf, jacobiResult_err]
    by_cases h0 : opN s = 0
    · simp [h0]
    · rcases Nat.mod_two_eq_zero_or_one (opN s) with heven | hodd
      · simp [h0, heven]
      · by_cases hg : Nat.gcd (opA s) (opN s) = 1 <;> simp [h0, hodd, hg]
  | sstrial =>
    rw [exec_err (by decide) h, resultOf, sstrialResult_err]
    split_ifs with hrange <;> simp [hrange]
  | sstest =>
    rw [exec_err (by decide) h, resultOf, sstestResult_err]
    simp

/-! ### Operands a command does not read (R63) -/

/-- A completion carries the operand registers and ITER through. -/
theorem finish_operands (c : CmdResult) (s : State) (a b n : List Word) (k : Word) :
    finish c { s with opa := a, opb := b, opn := n, iter := k } =
      { finish c s with opa := a, opb := b, opn := n, iter := k } := by cases c <;> rfl

/-- A command whose outcome is the same with other operands does the same to everything but them. -/
theorem exec_operands {i : Instr} (hn : i ≠ .nop) {s t : State} (a b n : List Word) (k : Word)
    (hsame : resultOf i { s with opa := a, opb := b, opn := n, iter := k } = resultOf i s) (h : exec i s = .next t) :
    exec i { s with opa := a, opb := b, opn := n, iter := k } =
      .next { t with opa := a, opb := b, opn := n, iter := k } := by
  rw [exec_eq_finish hn] at h ⊢
  cases h
  rw [hsame, ← finish_operands]

/-- Settles O31: the outcome of each command reads only its own operands, and the registers that stay are in its frame. -/
theorem unlistedRegistersAreIgnored : Obligations.UnlistedRegistersAreIgnored := by
  refine ⟨fun s t a b n k h => ?nop, fun s t k h => ?modexp, fun s t k h => ?modmul, fun s t b k h => ?jacobi,
    fun s t b k h => ?sstrial, fun s t a b h => ?sstest⟩
  case nop => rw [exec_nop] at h; cases h; rfl
  all_goals obtain ⟨hopa, hopb, hopn, hiter, -⟩ := exec_frame h
  case modexp => rw [exec_operands (by decide) s.opa s.opb s.opn k rfl h, hopa, hopb, hopn]
  case modmul => rw [exec_operands (by decide) s.opa s.opb s.opn k rfl h, hopa, hopb, hopn]
  case jacobi => rw [exec_operands (by decide) s.opa b s.opn k rfl h, hopa, hopn]
  case sstrial => rw [exec_operands (by decide) s.opa b s.opn k rfl h, hopa, hopn]
  case sstest => rw [exec_operands (by decide) a b s.opn s.iter rfl h, hopn, hiter]

end Sys2Proof.Machine
end

section
/-! PROOF. CMD writes, reads and writes of the named registers and of the window words (20_memory.md R43 to R47, R52). -/

namespace Sys2Proof.Machine

/-- Settles O1: the six words are the encodings of the commands; the other four have a reserved bit or opcode. -/
theorem decodesTheWordsOfTheOpcodeMap : Obligations.DecodesTheWordsOfTheOpcodeMap :=
  ⟨decode_encode .nop, decode_encode .modexp, decode_encode .modmul, decode_encode .jacobi, decode_encode .sstrial,
    decode_encode .sstest, rfl, rfl, rfl, rfl⟩

/-! ### CMD writes (R88) -/

/-- The word of a command other than NOP, written while idle, starts it. -/
theorem cmdWrite_encode_start {s : State} {i : Instr} (hb : s.busy = false) (hn : i ≠ .nop) :
    cmdWrite (encode i) s = .next (commandStart i s) := by
  rw [cmdWrite, if_neg (ne_true_of_eq_false hb), decode_encode]
  cases i with
  | nop => exact absurd rfl hn
  | _ => rfl

/-- Settles O7: a CMD write is dropped, refused as illegal, NOP's completion or a start. -/
theorem cmdWriteStartsCommand : Obligations.CmdWriteStartsCommand := by
  refine ⟨fun s v hb => ?busy, fun s v hb hv => ?illegal, fun s hb => ?nop, fun s i hb hn => ?start⟩
  case busy => exact (busTxn_write_cmd v s).trans (cmdWrite_of_busy v hb)
  case illegal => exact (busTxn_write_cmd v s).trans (cmdWrite_of_illegal hv hb)
  case nop => exact (busTxn_write_cmd 0#32 s).trans (cmdWrite_encode_nop hb)
  case start => exact (busTxn_write_cmd _ s).trans (cmdWrite_encode_start hb hn)

/-! ### Reads (R44, R47) -/

/-- A register that reads as a free value reads as the next draw. -/
theorem readValue_of_free {r : BusReg} {s : State} (hf : readsFree r s = true) : readValue r s = drawWord s := by
  cases r with
  | tdone => exact if_pos hf
  | res i => exact if_pos hf
  | _ => cases hf

/-- R47: a legal read of RES or TDONE while busy is a draw (log 8). -/
theorem busTxn_read_of_free {off : Offset} {r : BusReg} {s : State} (ha : off.toNat % 4 = 0)
    (hr : decodeOffset s.nw off = r) (hf : readsFree r s = true) :
    busTxn (.read off 4) s = .next { s with response := .data (Config.busyRead s.draws), draws := s.draws + 1 } := by
  rw [busTxn_read_aligned ha, memRead, hr, readValue_of_free hf, if_pos hf, drawWord]

/-- Settles O35: of the four only TDONE can be a draw, and is one while busy. -/
theorem controlRegisterReads : Obligations.ControlRegisterReads := by
  refine fun s => ⟨?status, ?cmd, ?iter, fun hb => ?idle, fun hb => ?busy⟩
  case status => exact busTxn_read_of_not_free (r := .status) (by decide) rfl rfl
  case cmd => exact busTxn_read_of_not_free (r := .cmd) (by decide) rfl rfl
  case iter => exact busTxn_read_of_not_free (r := .iter) (by decide) rfl rfl
  case idle =>
    rw [busTxn_read_of_not_free (r := .tdone) (by decide) rfl hb, readValue, if_neg (ne_true_of_eq_false hb)]
  case busy => exact busTxn_read_of_free (r := .tdone) (by decide) rfl hb

/-- Settles O37: a read is the read of `busRead_eq`. -/
theorem readsChangeNoRegister : Obligations.ReadsChangeNoRegister := by
  intro s off size
  obtain ⟨r, d, hread, hle, hidle⟩ := busRead_eq off size s
  exact ⟨r, d, congrArg _ hread, hle, hidle⟩

/-! ### Window words (R43) -/

theorem State.WidthOk.nw_le {s : State} (hw : s.WidthOk) : s.nw ≤ 1024 :=
  of_decide_eq_true (Bool.and_eq_true_iff.mp hw.width).2

/-- The offsets of window words are aligned. -/
theorem windowOffset_aligned {base i : Nat} (hb : base ≤ 0x4000) (ha : base % 4 = 0) (hi : i < 1024) :
    (BitVec.ofNat 15 (base + 4 * i)).toNat % 4 = 0 := by rw [toNat_windowOffset hb hi]; omega

/-- Settles O36: each window word is read as its register's word, which is its bits of the value. -/
theorem windowReads : Obligations.WindowReads := by
  intro s i hw hi
  have hi' : i < 1024 := hi.trans_le hw.nw_le
  refine ⟨?opA, ?opB, ?opN, fun hb => ?resIdle, fun hb => ?resBusy⟩
  case opA =>
    rw [busTxn_read_of_not_free (windowOffset_aligned (by decide) (by decide) hi') (decodeOffset_opA hi hi') rfl,
      readValue, readWord_eq, opA]
  case opB =>
    rw [busTxn_read_of_not_free (windowOffset_aligned (by decide) (by decide) hi') (decodeOffset_opB hi hi') rfl,
      readValue, readWord_eq, opB]
  case opN =>
    rw [busTxn_read_of_not_free (windowOffset_aligned (by decide) (by decide) hi') (decodeOffset_opN hi hi') rfl,
      readValue, readWord_eq, opN]
  case resIdle =>
    rw [busTxn_read_of_not_free (windowOffset_aligned (by decide) (by decide) hi') (decodeOffset_res hi hi') hb,
      readValue, if_neg (ne_true_of_eq_false hb), readWord_eq]
  case resBusy =>
    exact busTxn_read_of_free (windowOffset_aligned (by decide) (by decide) hi') (decodeOffset_res hi hi') hb

section WindowWrites

variable {s : State} {i : Nat} (hw : s.WidthOk) (hi : i < s.nw) (v : Word)
include hw hi

/-- R45, R46: a write to a word of OPA. -/
theorem busTxn_write_opA : busTxn (.write (BitVec.ofNat 15 (0x1000 + 4 * i)) 4 v) s =
    .next (opaWrite i v { s with response := .okay }) := by
  have hi' : i < 1024 := hi.trans_le hw.nw_le
  rw [busWrite_eq (windowOffset_aligned (by decide) (by decide) hi'), decodeOffset_opA hi hi']; rfl

/-- R45, R46: a write to a word of OPB. -/
theorem busTxn_write_opB : busTxn (.write (BitVec.ofNat 15 (0x2000 + 4 * i)) 4 v) s =
    .next (opbWrite i v { s with response := .okay }) := by
  have hi' : i < 1024 := hi.trans_le hw.nw_le
  rw [busWrite_eq (windowOffset_aligned (by decide) (by decide) hi'), decodeOffset_opB hi hi']; rfl

/-- R45, R46: a write to a word of OPN. -/
theorem busTxn_write_opN : busTxn (.write (BitVec.ofNat 15 (0x3000 + 4 * i)) 4 v) s =
    .next (opnWrite i v { s with response := .okay }) := by
  have hi' : i < 1024 := hi.trans_le hw.nw_le
  rw [busWrite_eq (windowOffset_aligned (by decide) (by decide) hi'), decodeOffset_opN hi hi']; rfl

end WindowWrites

/-- R45, R46: a write to ITER. -/
theorem busTxn_write_iter (v : Word) (s : State) :
    busTxn (.write 0x0014#15 4 v) s = .next (iterWrite v { s with response := .okay }) :=
  busWrite_eq (by decide) v s

/-- A register with its word i replaced by `v`. -/
theorem writeWord_replaces {r : List Word} {nw i : Nat} (hlen : r.length = nw) (hi : i < nw) (v : Word) :
    (writeWord r i v).length = nw ∧ readWord (writeWord r i v) i = v ∧
      ∀ j, j ≠ i → readWord (writeWord r i v) j = readWord r j :=
  ⟨(length_writeWord r i v).trans hlen, readWord_writeWord_same (hlen ▸ hi) v,
    fun _ hj => readWord_writeWord_other r hj v⟩

/-- Settles O38: while idle each write is performed, and replaces one word of its register. -/
theorem windowWriteReplacesOneWord : Obligations.WindowWriteReplacesOneWord := by
  intro s i v hw hi hb
  have idle {α : Type} (x y : α) : (if s.busy then x else y) = y := if_neg (ne_true_of_eq_false hb)
  refine ⟨⟨_, ?_, writeWord_replaces hw.opa hi v⟩, ⟨_, ?_, writeWord_replaces hw.opb hi v⟩,
    ⟨_, ?_, writeWord_replaces hw.opn hi v⟩, ?_⟩
  · rw [busTxn_write_opA hw hi]; exact congrArg _ (idle _ _)
  · rw [busTxn_write_opB hw hi]; exact congrArg _ (idle _ _)
  · rw [busTxn_write_opN hw hi]; exact congrArg _ (idle _ _)
  · rw [busTxn_write_iter]; exact congrArg _ (idle _ _)

/-- Settles O39: while busy those writes are dropped; CTRL and STATUS writes do not look at BUSY first. -/
theorem writesWhileBusyAreDropped : Obligations.WritesWhileBusyAreDropped := by
  intro s v hw hb
  have busy {α : Type} (x y : α) : (if s.busy then x else y) = x := if_pos hb
  refine ⟨?cmd, ?iter, fun i hi => ⟨?opA, ?opB, ?opN⟩, busTxn_write_ctrl v s, busTxn_write_status v s⟩
  case cmd => exact (busTxn_write_cmd v s).trans (cmdWrite_of_busy v hb)
  case iter => rw [busTxn_write_iter]; exact congrArg _ (busy _ _)
  case opA => rw [busTxn_write_opA hw hi]; exact congrArg _ (busy _ _)
  case opB => rw [busTxn_write_opB hw hi]; exact congrArg _ (busy _ _)
  case opN => rw [busTxn_write_opN hw hi]; exact congrArg _ (busy _ _)

/-! ### Read-only registers (R45) -/

/-- The offsets of the RES window reach a RES word or nothing. -/
theorem decodeOffset_resWindow (nw : Nat) {off : Offset} (hl : 0x4000 ≤ off.toNat) (hu : off.toNat ≤ 0x4FFF) :
    decodeOffset nw off = windowWord nw .res ((off.toNat - 0x4000) / 4) := by
  have hge : ∀ k ≤ 0x4000, ¬ off.toNat < k := by omega
  simp [decodeOffset, hge, show off.toNat < 0x5000 by omega]

/-- A write to a word of the RES window reaches no register. -/
theorem writeReg_resWindow (nw i : Nat) (v : Word) (s : State) : writeReg (windowWord nw .res i) v s = .next s := by
  unfold windowWord
  split <;> rfl

/-- Settles O41: each offset reaches a register that a write leaves, or none. -/
theorem readOnlyRegistersIgnoreWrites : Obligations.ReadOnlyRegistersIgnoreWrites := by
  refine fun s v => ⟨busWrite_eq (by decide) v s, busWrite_eq (by decide) v s, busWrite_eq (by decide) v s,
    fun off ha hl hu => ?_⟩
  rw [busWrite_eq ha, decodeOffset_resWindow s.nw hl hu, writeReg_resWindow]

end Sys2Proof.Machine
end

section
/-! PROOF. The fields of the STATUS word (10_state.md R29 to R35, 30_encoding.md R64). -/

namespace Sys2Proof.Machine

theorem toNat_errBits_le (e : ErrCode) : (errBits e).toNat ≤ 6 := by cases e <;> decide

theorem toNat_reasonBits_le (r : Reason) : (reasonBits r).toNat ≤ 5 := by cases r <;> decide

theorem jsymBits_ne_reserved (j : Jsym) : jsymBits j ≠ 0b10#2 := by cases j <;> decide

/-- The one-bit fields of STATUS and its single reserved bits: each index walks down the concatenation to its own part. -/
theorem statusWord_bits (s : State) :
    (statusWord s).getLsbD 0 = s.busy ∧ (statusWord s).getLsbD 1 = s.done ∧ (statusWord s).getLsbD 8 = s.verdict ∧
    (statusWord s).getLsbD 11 = false ∧ (statusWord s).getLsbD 15 = false ∧ (statusWord s).getLsbD 16 = s.wbusy := by
  simp only [statusWord, BitVec.getLsbD_append]
  simp

/-- The wider fields of STATUS and its reserved ranges: each range is one part of the concatenation, whole. -/
theorem statusWord_ranges (s : State) :
    (statusWord s).extractLsb 3 2 = 0#2 ∧ (statusWord s).extractLsb 7 4 = errBits s.err ∧
    (statusWord s).extractLsb 10 9 = jsymBits s.jsym ∧ (statusWord s).extractLsb 14 12 = reasonBits s.reason ∧
    (statusWord s).extractLsb 31 17 = 0#15 := by
  simp (disch := decide) only [statusWord, BitVec.extractLsb, BitVec.extractLsb'_append_eq_of_le,
    BitVec.extractLsb'_append_eq_of_add_le]
  exact ⟨BitVec.extractLsb'_eq_self, BitVec.extractLsb'_eq_self, BitVec.extractLsb'_eq_self, BitVec.extractLsb'_eq_self,
    BitVec.extractLsb'_eq_self⟩

/-- Settles O42: the codes are those of the definitions, and the fields are read off the concatenation. -/
theorem statusWordHasItsFields : Obligations.StatusWordHasItsFields := by
  refine ⟨rfl, rfl, rfl, rfl, rfl, rfl, rfl, rfl, rfl, rfl, rfl, rfl, rfl, rfl, rfl, rfl, fun s => ?_⟩
  obtain ⟨hbusy, hdone, hverdict, h11, h15, hwbusy⟩ := statusWord_bits s
  obtain ⟨h32, herr, hjsym, hreason, hhigh⟩ := statusWord_ranges s
  exact ⟨toNat_errBits_le s.err, toNat_reasonBits_le s.reason, jsymBits_ne_reserved s.jsym, hbusy, hdone, h32, herr,
    hverdict, hjsym, h11, hreason, h15, hwbusy, hhigh⟩

end Sys2Proof.Machine
end

section
/-! PROOF. Host programs and the platform: `ldw`, big-endian blocks, and the aperture (30_encoding.md R66, 20_memory.md R40, R48). -/

namespace Sys2Proof.Machine

/-! ### The lines of `ldw OPN` (R66) -/

/-- A register after the words of `ws` at the indices `is` have been written to it, in that order. -/
def storeWords (ws : List Word) (is : List Nat) (r : List Word) : List Word :=
  is.foldl (fun r i => writeWord r i (readWord ws i)) r

@[simp] theorem storeWords_nil (ws r : List Word) : storeWords ws [] r = r := rfl

@[simp] theorem storeWords_cons (ws : List Word) (i : Nat) (is : List Nat) (r : List Word) :
    storeWords ws (i :: is) r = storeWords ws is (writeWord r i (readWord ws i)) := rfl

@[simp] theorem length_storeWords (ws : List Word) (is : List Nat) (r : List Word) :
    (storeWords ws is r).length = r.length := by
  induction is generalizing r with
  | nil => rfl
  | cons i is ih => rw [storeWords_cons, ih, length_writeWord]

/-- A word that is written, or already right, is right at the end. -/
theorem readWord_storeWords {ws : List Word} {is : List Nat} {r : List Word} {j : Nat} (hj : j < r.length)
    (h : j ∈ is ∨ readWord r j = readWord ws j) : readWord (storeWords ws is r) j = readWord ws j := by
  induction is generalizing r with
  | nil => simpa using h
  | cons i is ih =>
    rw [storeWords_cons]
    refine ih (by rwa [length_writeWord]) ?_
    by_cases hij : j = i
    · subst hij; exact .inr (readWord_writeWord_same hj _)
    · rw [readWord_writeWord_other r hij]
      simpa [hij] using h

/-- Registers of one width with equal words are equal. -/
theorem eq_of_readWord_eq {a b : List Word} (hlen : a.length = b.length)
    (h : ∀ j < a.length, readWord a j = readWord b j) : a = b := by
  refine List.ext_getElem hlen fun j ha hb => ?_
  have := h j ha
  rwa [readWord, readWord, List.getD_eq_getElem _ _ ha, List.getD_eq_getElem _ _ hb] at this

/-- When every word is written, the register is what was written. -/
theorem storeWords_range {ws r : List Word} {nw : Nat} (hws : ws.length = nw) (hr : r.length = nw) :
    storeWords ws (List.range nw) r = ws := by
  refine eq_of_readWord_eq (by rw [length_storeWords, hr, hws]) fun j hj => ?_
  rw [length_storeWords] at hj
  exact readWord_storeWords hj (.inl (List.mem_range.mpr (hr ▸ hj)))

/-- One line of `ldw OPN` on an idle engine with nothing scheduled (R45). -/
theorem step_opN_line {s : State} {i : Nat} {v : Word} {rest : List HostOp} (hw : s.WidthOk) (hb : s.busy = false)
    (hp : s.resetPin = false) (ht : s.turns = []) (hi : i < s.nw) (hh : s.host = wr (.opN i) v :: rest) :
    step s = .next { s with opn := writeWord s.opn i v, host := rest, response := .okay } := by
  rw [step_of_unscheduled_idle ht hb, hostStep_of_bus hp hh]
  refine (busTxn_write_opN (s := { s with host := rest }) { hw with } hi v).trans (congrArg _ ?_)
  exact if_neg (ne_true_of_eq_false hb)

/-- The lines of `ldw OPN` at a nonempty list of indices, one step each. -/
theorem run_opN_lines {ws : List Word} {i : Nat} {is : List Nat} {s : State} {rest : List HostOp} (hw : s.WidthOk)
    (hb : s.busy = false) (hp : s.resetPin = false) (ht : s.turns = []) (hi : ∀ j ∈ i :: is, j < s.nw)
    (hh : s.host = (i :: is).map (fun j => wr (.opN j) (readWord ws j)) ++ rest) :
    core.run (is.length + 1) s =
      .next { s with opn := storeWords ws (i :: is) s.opn, host := rest, response := .okay } := by
  induction is generalizing i s with
  | nil => exact run_one_of_step (step_opN_line hw hb hp ht (hi i List.mem_cons_self) hh)
  | cons j is ih =>
    rw [List.length_cons, run_succ_of_step (step_opN_line hw hb hp ht (hi i List.mem_cons_self) hh)]
    exact ih { hw with opn := (length_writeWord _ _ _).trans hw.opn } hb hp ht
      (fun k hk => hi k (List.mem_cons_of_mem i hk)) rfl

/-- Settles O57: the lines write every word of the value into OPN, and the value fits. -/
theorem ldwLoadsTheOperand : Obligations.LdwLoadsTheOperand := by
  intro s value rest hw hb hp ht hvalue hh
  have hnw : 2 ≤ s.nw := of_decide_eq_true (Bool.and_eq_true_iff.mp hw.width).1
  obtain ⟨i, is, hrange⟩ := List.exists_cons_of_ne_nil (List.range_eq_nil.not.mpr (by omega : s.nw ≠ 0))
  have hlen : is.length + 1 = s.nw := by rw [← List.length_cons (a := i), ← hrange, List.length_range]
  have hbound : ∀ j ∈ i :: is, j < s.nw := fun j hj => List.mem_range.mp (hrange ▸ hj)
  have hstored : storeWords (wideOfNat s.nw value) (i :: is) s.opn = wideOfNat s.nw value := by
    rw [← hrange]; exact storeWords_range (length_wideOfNat s.nw value) hw.opn
  rw [ldw, hrange] at hh
  have hrun := run_opN_lines hw hb hp ht hbound hh
  rw [hlen, hstored] at hrun
  exact ⟨_, hrun, wideVal_wideOfNat hvalue⟩

/-! ### Big-endian blocks (R48) -/

/-- A byte appended below is the least significant. -/
theorem toNat_append_byte {n : Nat} (x : BitVec n) (b : BitVec 8) : (x ++ b).toNat = 256 * x.toNat + b.toNat := by
  rw [BitVec.toNat_append, ← Nat.shiftLeft_add_eq_or_of_lt b.isLt, Nat.shiftLeft_eq, mul_comm]

theorem toNat_beWord (b3 b2 b1 b0 : BitVec 8) :
    (beWord b3 b2 b1 b0).toNat = 256 * (256 * (256 * b3.toNat + b2.toNat) + b1.toNat) + b0.toNat := by
  rw [beWord, toNat_append_byte, toNat_append_byte, toNat_append_byte]

/-- The value of a block given with its last byte first: four bytes make a word, and missing ones count 0. -/
theorem wideVal_beWordsRev (l : List (BitVec 8)) :
    wideVal (beWordsRev l) = l.foldr (fun b acc => 256 * acc + b.toNat) 0 := by
  induction l using beWordsRev.induct with
  | case1 b0 b1 b2 b3 rest ih =>
    rw [beWordsRev, wideVal_cons, ih, toNat_beWord]
    simp only [List.foldr_cons]
    omega
  | case2 => simp [beWordsRev, toNat_beWord]
  | case3 => simp [beWordsRev, toNat_beWord]
  | case4 => simp [beWordsRev, toNat_beWord]
  | case5 => rfl

/-- A block has one word for every four bytes begun. -/
theorem length_beWordsRev (l : List (BitVec 8)) : (beWordsRev l).length = (l.length + 3) / 4 := by
  induction l using beWordsRev.induct with
  | case1 b0 b1 b2 b3 rest ih =>
    rw [beWordsRev, List.length_cons, ih]
    simp only [List.length_cons]
    omega
  | case2 | case3 | case4 | case5 => simp [beWordsRev]

/-- Settles O58: the words are those of the reversed block, whose fold from the right is the block's from the left. -/
theorem bigEndianBlockKeepsItsValue : Obligations.BigEndianBlockKeepsItsValue := by
  refine fun bytes => ⟨?_, fun nw hlen => ?_⟩
  · rw [operandWords, wideVal_beWordsRev, List.foldr_reverse]
  · rw [operandWords, length_beWordsRev, List.length_reverse]; omega

/-! ### The aperture (R40) -/

/-- Settles O59: an address is in the aperture when its quotient by 0x8000 is the base's, and the offset is its remainder. -/
theorem apertureAddressSelectsOffset : Obligations.ApertureAddressSelectsOffset := by
  refine ⟨Nat.mul_mod_right _ _, fun off => ?inside, fun addr => ?outside⟩
  case inside =>
    have hoff : off.toNat < 0x8000 := off.isLt
    have hquot : (Config.apertureBase + off.toNat) / 0x8000 = Config.apertureIndex := by
      unfold Config.apertureBase; omega
    rw [offsetOfAddress, if_pos hquot]
    refine congrArg some (BitVec.eq_of_toNat_eq ?_)
    rw [BitVec.toNat_ofNat, Config.apertureBase]
    omega
  case outside =>
    have hnone : offsetOfAddress addr = none ↔ addr / 0x8000 ≠ Config.apertureIndex := by simp [offsetOfAddress]
    rw [hnone, Config.apertureBase]
    omega

end Sys2Proof.Machine
end
